-- ==== Sys2Proof/Word.lean ====
section
/-! DEFINITION. The word types of the part and the one way a multi-byte field is read from a little-endian record (R181). -/

namespace Sys2Proof

/-- One byte of a record, a message or the cell data memory. -/
abbrev Byte := BitVec 8

/-- A 32-bit register of the window (R185). -/
abbrev Word32 := BitVec 32

/-- A host byte address field: "Host addresses are 64-bit fields" (R181). -/
abbrev Address := BitVec 64

end Sys2Proof
end

