-- ==== Sys2Proof/Config.lean ====
section
/-! DEFINITION. The fixed capacities of the part (00_scope.md, Capacities) and the closed sets of names the spec uses. -/

namespace Sys2Proof

/-! ### Capacities -/

/-- Cells of the cell pool (R1). -/
def cellTotal : Nat := 8192
/-- Bytes of a cell (R1). -/
def cellBytes : Nat := 256
/-- Records of the frame table (R7). -/
def recordTotal : Nat := 2048
/-- Flow contexts (R21). -/
def flowTotal : Nat := 128
/-- Submission rings (R39). -/
def sqTotal : Nat := 32
/-- Completion rings (R118). -/
def cqTotal : Nat := 16
/-- Egress links (R66). -/
def linkTotal : Nat := 4
/-- Lanes of a link (R66). -/
def laneTotal : Nat := 4
/-- Fetch slots (R43). -/
def slotTotal : Nat := 8
/-- Slots of a calendar (R86). -/
def calendarSlots : Nat := 64
/-- The AP's entry of the outstanding-read table; entries 0 to 7 belong to the fetch slots (R177). -/
def adminReadEntry : Nat := 8
/-- Entries of the outstanding-read table (R177). -/
def readTotal : Nat := 9
/-- The largest payload read in bytes (R59). -/
def largestRead : Nat := 512
/-- Bytes of a descriptor and of an admin command (R48, R136). -/
def recordReadBytes : Nat := 64
/-- A host read's timer at its issue, in microseconds (R177). -/
def readTimeoutUs : Nat := 10000
/-- The underrun timer at its start, in microseconds (R108). -/
def underrunUs : Nat := 20
/-- The OFFER timer at its start, in milliseconds (R76). -/
def offerMs : Nat := 1
/-- The largest announced credit of a lane (R70). -/
def largestCredit : Nat := 1023
/-- The largest occurrence count of a backlog entry (R167). -/
def largestOccurrence : Nat := 65535

/-- Sizes a transmit ring may have: a power of two from 16 to 4096 (R62, R130). -/
def ringSizes : List Nat := [16, 32, 64, 128, 256, 512, 1024, 2048, 4096]
/-- Sizes a system ring may have: a power of two from 16 to 256 (R173). -/
def systemRingSizes : List Nat := [16, 32, 64, 128, 256]

/-! ### Names of states -/

/-- Device states (R170). -/
inductive DeviceState where
  | stopped | running | failed | selfResetting | resetting
deriving DecidableEq, Repr

/-- Containment modes of CONTROL (R154, R172). -/
inductive ContainmentMode where
  | halt | haltLinksDown | selfReset
deriving DecidableEq, Repr

/-- Fatal causes (R154). -/
inductive FatalCause where
  | linkTableUncorrectable | frameTableUncorrectable
deriving DecidableEq, Repr

/-- The three protected memories (R155). -/
inductive ProtectedMemory where
  | cellData | linkTable | frameTable
deriving DecidableEq, Repr

/-- What the check bits of a byte, a link entry or a frame record show when it is next read (R155). -/
inductive Ecc where
  | valid | oneBit | uncorrectable
deriving DecidableEq, Repr

/-- Frame record states (R11). -/
inductive FrameState where
  | free | filling | ready | sending | closing | discarding
deriving DecidableEq, Repr

/-- Causes of a frame record (R7). -/
inductive FrameCause where
  | hostReadError | fetchAborted | underrun | dataError | linkLost | flushed
deriving DecidableEq, Repr

/-- Flow states (R26). -/
inductive FlowState where
  | unconfigured | disabled | enabled | flushing
deriving DecidableEq, Repr

/-- Admission policies of a flow (R21). -/
inductive Policy where
  | hold | discard
deriving DecidableEq, Repr

/-- Submission ring states (R40). -/
inductive SqState where
  | absent | active | error | deleting
deriving DecidableEq, Repr

/-- Completion ring states (R119). -/
inductive CqState where
  | absent | active
deriving DecidableEq, Repr

/-- Link states (R67). -/
inductive LinkState where
  | disabled | awaitPartner | active | draining | failed
deriving DecidableEq, Repr

/-- Link causes (R66, R68). -/
inductive LinkCause where
  | partnerDown | creditOverflow | protocol | containment
deriving DecidableEq, Repr

/-- The long command whose completion a link owes (R66). -/
inductive LinkCommand where
  | enable | disable
deriving DecidableEq, Repr

/-- Serializer states other than IDLE (R103). -/
inductive SerializerState where
  | transmitting | starved
deriving DecidableEq, Repr

/-- Admin Processor states (R134). -/
inductive ApState where
  | idle | reading | error
deriving DecidableEq, Repr

/-! ### Statuses -/

/-- Completion statuses of a transmit descriptor (R53, R116). -/
inductive FrameStatus where
  | sent | hostReadError | fetchAborted | underrun | dataError | linkLost | flushed
  | invalidDescriptor | flowNotReady | droppedNoBuffer | ringDeleted
deriving DecidableEq, Repr

/-- Subcodes of INVALID_DESCRIPTOR (R52), and none. -/
inductive Subcode where
  | none | badKind | badFlow | badLength | badSegments | exceedsCap
deriving DecidableEq, Repr

/-- Admin completion statuses (R140). -/
inductive AdminStatus where
  | ok | busy | badParameter | badState | notFound | timeout | aborted | unknownCommand
deriving DecidableEq, Repr

/-! ### Register names -/

/-- The nine words of the six system ring registers (R175, section 11.9). -/
inductive SystemRingRegister where
  | asrBaseLow | asrBaseHigh | asrSize | acrBaseLow | acrBaseHigh | acrSize
  | nrBaseLow | nrBaseHigh | nrSize
deriving DecidableEq, Repr

/-! ### Disturbances of the protected memories -/

/-- One disturbance that has struck a protected memory: from now on the check bits there show a one-bit error
(`severe = false`) or an error of two or more bits (`severe = true`). The spec has no command for it: the rows whose
events read the memories carry the disturbances that came since (R155; log entry 4). -/
inductive Upset where
  | cellByte (cell : Fin 8192) (offset : Fin 256) (severe : Bool)
  | linkEntry (cell : Fin 8192) (severe : Bool)
  | frameRecord (record : Fin 2048) (severe : Bool)
deriving DecidableEq, Repr

end Sys2Proof
end

