-- ==== Sys2Proof/Syntax.lean ====
section
/-! DEFINITION. The commands of the part: one constructor per row of spec/opcode_table.json, in the table's order. Operands have the widths of 11_record_and_message_formats.md, so that a value outside its owner's range can be sent (R181). -/

namespace Sys2Proof

/-- The commands. A host write carries its 32-bit word; an admin command's row carries the fields of the 64 bytes that
the AP's command read returned (R137); a read's end names its entry of the outstanding-read table or its fetch slot; a
partner message names the link it arrived on; `upsets` are the disturbances of the protected memories that came since
the last command (log entry 4). -/
inductive Instr where
  | powerOn
  | hostLinkReset
  | functionReset (word : Word32)
  | run (word : Word32)
  | containmentModeWrite (word : Word32)
  | systemRingRegisterWrite (reg : SystemRingRegister) (value : Word32)
  | registerWrite (offset width : Nat) (value : Word32)
  | sqProducerIndexWrite (ring : Fin 32) (value : Word32)
  | asrProducerIndexWrite (value : Word32)
  | cqConsumerIndexWrite (ring : Fin 16) (value : Word32)
  | acrConsumerIndexWrite (value : Word32)
  | nrConsumerIndexWrite (value : Word32)
  | fetchSlotGrant
  | retry (upsets : List Upset)
  | descriptorReadReturn (slot : Fin 8) (data : BitVec 512) (upsets : List Upset)
  | descriptorReadError (slot : Fin 8)
  | payloadReadReturn (slot : Fin 8) (data : List Byte) (upsets : List Upset)
  | payloadReadError (slot : Fin 8)
  | hostReadTimeout (entry : Fin 9)
  | strayReadResponse (entry : Fin 9)
  | fetchEnd (record : Fin 2048) (upsets : List Upset)
  | commandReadStart
  | commandReadError
  | createSq (tag : BitVec 16) (ring cq : BitVec 8) (size limit : BitVec 16) (base : Address)
  | deleteSq (tag : BitVec 16) (ring : BitVec 8)
  | createCq (tag : BitVec 16) (ring vector threshold : BitVec 8) (size holdoff : BitVec 16) (base : Address)
  | deleteCq (tag : BitVec 16) (ring : BitVec 8)
  | configureFlow (tag : BitVec 16) (flow : BitVec 16) (link cls : BitVec 8) (cap : BitVec 16)
      (policy threshold : BitVec 8)
  | enableFlow (tag : BitVec 16) (flow : BitVec 16)
  | disableFlow (tag : BitVec 16) (flow : BitVec 16)
  | flushFlow (tag : BitVec 16) (flow : BitVec 16)
  | queryFlow (tag : BitVec 16) (flow : BitVec 16)
  | enableLink (tag : BitVec 16) (link : BitVec 8) (timeout : BitVec 16)
  | disableLink (tag : BitVec 16) (link : BitVec 8)
  | setClassMap (tag : BitVec 16) (link mask : BitVec 8) (lanes : BitVec 64)
  | queryLink (tag : BitVec 16) (link : BitVec 8)
  | writeCalendar (tag : BitVec 16) (link start count blank : BitVec 8) (entries : BitVec 448)
  | activateCalendar (tag : BitVec 16) (link : BitVec 8)
  | setErrorPolicy (tag : BitVec 16) (threshold : Word32)
  | queryPool (tag : BitVec 16)
  | unknownCommand (tag : BitVec 16) (kind : BitVec 8)
  | ready (link : Fin 4) (credit0 credit1 credit2 credit3 : BitVec 16)
  | credit (link : Fin 4) (lane : BitVec 8) (count : BitVec 16)
  | down (link : Fin 4) (field : BitVec 8)
  | malformedMessage (link : Fin 4)
  | offerTimerExpiry (link : Fin 4)
  | linkUpTimerExpiry (link : Fin 4)
  | cellSent (link : Fin 4) (upsets : List Upset)
  | underrunTimerExpiry (link : Fin 4)
  | abortOrder (link : Fin 4) (record : Fin 2048)
  | holdoffTimerExpiry (ring : Fin 16)
  | correctionReport (memory : ProtectedMemory)
  | cellDataErrorReport (link : Fin 4) (cell : Fin 8192)
  | fatalReport (cause : FatalCause)
  | selfResetCompletion
  | functionResetCompletion
  | flushEnd (flow : Fin 128)
  | deletionEnd (ring : Fin 32)
  | drainEnd (link : Fin 4)
  | activationApply (link : Fin 4)
deriving DecidableEq, Repr

end Sys2Proof
end

