-- ==== Sys2Proof/WellFormed.lean ====
section
/-! DEFINITION. Which terms of Instr are the command their row names. A term that fails is still given a meaning: the write, read end or message it describes is taken for what the spec makes of it. -/

namespace Sys2Proof

/-- The kinds of the seventeen admin commands (section 11.4, R139). -/
def commandKinds : List Nat :=
  [0x01, 0x02, 0x03, 0x04, 0x10, 0x11, 0x12, 0x13, 0x14, 0x20, 0x21, 0x22, 0x23, 0x30, 0x31, 0x40, 0x41]

/-- Offsets of the window whose writes have behaviour of their own (section 11.9): CONTROL, the nine words of the system
ring registers, and the index ports. -/
def writableOffsets : List Nat :=
  [0x000, 0x010, 0x014, 0x018, 0x020, 0x024, 0x028, 0x030, 0x034, 0x038]
    ++ (List.range 51).map fun n => 0x100 + 4 * n

/-- The term is the command its row of the table names: a CONTROL write stands in the row that its bit 1 (FUNCTION_RESET) and bit 0 (RUN) select (R172, section 11.9); a
REGISTER_WRITE is one without behaviour (R185); a payload read returns 1 to 512 bytes (R177); an unknown command's kind
is none of the seventeen (R137); a READY and a CREDIT carry values the part can take (R184). An admin command's fields
may hold anything: their owner checks them (R181). -/
def Instr.wellFormed : Instr → Bool
  | .functionReset w => w.getLsbD 1
  | .run w => !w.getLsbD 1 && w.getLsbD 0
  | .containmentModeWrite w => !w.getLsbD 1 && !w.getLsbD 0
  | .registerWrite offset width _ => decide (width ≠ 4) || !writableOffsets.contains offset
  | .payloadReadReturn _ data _ => decide (1 ≤ data.length) && decide (data.length ≤ largestRead)
  | .unknownCommand _ kind => !commandKinds.contains kind.toNat
  | .ready _ a b c d =>
    decide (a.toNat ≤ largestCredit) && decide (b.toNat ≤ largestCredit) && decide (c.toNat ≤ largestCredit)
      && decide (d.toNat ≤ largestCredit)
  | .credit _ lane count => decide (lane.toNat < laneTotal) && decide (1 ≤ count.toNat) && decide (count.toNat ≤ largestCredit)
  | .powerOn | .hostLinkReset | .systemRingRegisterWrite .. | .sqProducerIndexWrite .. | .asrProducerIndexWrite ..
  | .cqConsumerIndexWrite .. | .acrConsumerIndexWrite .. | .nrConsumerIndexWrite .. | .fetchSlotGrant | .retry ..
  | .descriptorReadReturn .. | .descriptorReadError .. | .payloadReadError .. | .hostReadTimeout ..
  | .strayReadResponse .. | .fetchEnd .. | .commandReadStart | .commandReadError | .createSq .. | .deleteSq ..
  | .createCq .. | .deleteCq .. | .configureFlow .. | .enableFlow .. | .disableFlow .. | .flushFlow .. | .queryFlow ..
  | .enableLink .. | .disableLink .. | .setClassMap .. | .queryLink .. | .writeCalendar .. | .activateCalendar ..
  | .setErrorPolicy .. | .queryPool .. | .down .. | .malformedMessage .. | .offerTimerExpiry .. | .linkUpTimerExpiry ..
  | .cellSent .. | .underrunTimerExpiry .. | .abortOrder .. | .holdoffTimerExpiry .. | .correctionReport ..
  | .cellDataErrorReport .. | .fatalReport .. | .selfResetCompletion | .functionResetCompletion | .flushEnd ..
  | .deletionEnd .. | .drainEnd .. | .activationApply .. => true

end Sys2Proof
end

