-- ==== Sys2Proof/Decode.lean ====
section
/-! DEFINITION. The command a table word spells (none: the table gives no row any bits), and the formats in which admin commands and partner messages reach the part (sections 11.4 and 11.8), decoded and encoded. -/

namespace Sys2Proof

/-- The table gives no row any bits ("fields": [] throughout), so no word spells a command. -/
def decodeTableWord (_nbits _w : Nat) : Option Instr := none

/-! ### Admin commands (section 11.4) -/

/-- The field of `width` bytes at byte `offset` of a 64-byte record, least significant byte first (R181). -/
def commandField (r : BitVec 512) (offset width : Nat) : BitVec (8 * width) := r.extractLsb' (8 * offset) (8 * width)

/-- The command that 64 bytes read from the ASR spell: the kind at offset 0, the tag at offset 2, the parameters at the
offsets of section 11.4; reserved and unused bytes are not examined (R182), and a kind the table does not list is an
unknown command (R137). -/
def decodeAdminCommand (r : BitVec 512) : Instr :=
  let tag := commandField r 2 2
  let kind := commandField r 0 1
  match kind.toNat with
  | 0x01 => .createSq tag (commandField r 8 1) (commandField r 9 1) (commandField r 10 2) (commandField r 12 2)
      (commandField r 16 8)
  | 0x02 => .deleteSq tag (commandField r 8 1)
  | 0x03 => .createCq tag (commandField r 8 1) (commandField r 9 1) (commandField r 10 1) (commandField r 12 2)
      (commandField r 14 2) (commandField r 16 8)
  | 0x04 => .deleteCq tag (commandField r 8 1)
  | 0x10 => .configureFlow tag (commandField r 8 2) (commandField r 10 1) (commandField r 11 1) (commandField r 12 2)
      (commandField r 14 1) (commandField r 15 1)
  | 0x11 => .enableFlow tag (commandField r 8 2)
  | 0x12 => .disableFlow tag (commandField r 8 2)
  | 0x13 => .flushFlow tag (commandField r 8 2)
  | 0x14 => .queryFlow tag (commandField r 8 2)
  | 0x20 => .enableLink tag (commandField r 8 1) (commandField r 10 2)
  | 0x21 => .disableLink tag (commandField r 8 1)
  | 0x22 => .setClassMap tag (commandField r 8 1) (commandField r 9 1) (commandField r 10 8)
  | 0x23 => .queryLink tag (commandField r 8 1)
  | 0x30 => .writeCalendar tag (commandField r 1 1) (commandField r 4 1) (commandField r 5 1) (commandField r 6 1)
      (commandField r 8 56)
  | 0x31 => .activateCalendar tag (commandField r 8 1)
  | 0x40 => .setErrorPolicy tag (commandField r 8 4)
  | 0x41 => .queryPool tag
  | _ => .unknownCommand tag kind

/-- A field placed at byte `offset` of a 64-byte record. -/
def commandBytes {w : Nat} (offset : Nat) (x : BitVec w) : BitVec 512 := x.setWidth 512 <<< (8 * offset)

/-- The kind and the tag, which every command has at offsets 0 and 2 (section 11.4). -/
def commandHeader (kind : Nat) (tag : BitVec 16) : BitVec 512 :=
  commandBytes 0 (BitVec.ofNat 8 kind) ||| commandBytes 2 tag

/-- The 64 bytes of an admin command with every reserved and unused byte 0 (section 11.4); none for a row that is not
one. -/
def encodeAdminCommand : Instr → Option (BitVec 512)
  | .createSq tag ring cq size limit base =>
    some (commandHeader 0x01 tag ||| commandBytes 8 ring ||| commandBytes 9 cq ||| commandBytes 10 size
      ||| commandBytes 12 limit ||| commandBytes 16 base)
  | .deleteSq tag ring => some (commandHeader 0x02 tag ||| commandBytes 8 ring)
  | .createCq tag ring vector threshold size holdoff base =>
    some (commandHeader 0x03 tag ||| commandBytes 8 ring ||| commandBytes 9 vector ||| commandBytes 10 threshold
      ||| commandBytes 12 size ||| commandBytes 14 holdoff ||| commandBytes 16 base)
  | .deleteCq tag ring => some (commandHeader 0x04 tag ||| commandBytes 8 ring)
  | .configureFlow tag flow link cls cap policy threshold =>
    some (commandHeader 0x10 tag ||| commandBytes 8 flow ||| commandBytes 10 link ||| commandBytes 11 cls
      ||| commandBytes 12 cap ||| commandBytes 14 policy ||| commandBytes 15 threshold)
  | .enableFlow tag flow => some (commandHeader 0x11 tag ||| commandBytes 8 flow)
  | .disableFlow tag flow => some (commandHeader 0x12 tag ||| commandBytes 8 flow)
  | .flushFlow tag flow => some (commandHeader 0x13 tag ||| commandBytes 8 flow)
  | .queryFlow tag flow => some (commandHeader 0x14 tag ||| commandBytes 8 flow)
  | .enableLink tag link timeout => some (commandHeader 0x20 tag ||| commandBytes 8 link ||| commandBytes 10 timeout)
  | .disableLink tag link => some (commandHeader 0x21 tag ||| commandBytes 8 link)
  | .setClassMap tag link mask lanes =>
    some (commandHeader 0x22 tag ||| commandBytes 8 link ||| commandBytes 9 mask ||| commandBytes 10 lanes)
  | .queryLink tag link => some (commandHeader 0x23 tag ||| commandBytes 8 link)
  | .writeCalendar tag link start count blank entries =>
    some (commandHeader 0x30 tag ||| commandBytes 1 link ||| commandBytes 4 start ||| commandBytes 5 count
      ||| commandBytes 6 blank ||| commandBytes 8 entries)
  | .activateCalendar tag link => some (commandHeader 0x31 tag ||| commandBytes 8 link)
  | .setErrorPolicy tag threshold => some (commandHeader 0x40 tag ||| commandBytes 8 threshold)
  | .queryPool tag => some (commandHeader 0x41 tag)
  | .unknownCommand tag kind => some (commandHeader kind.toNat tag)
  | _ => none

/-! ### Partner messages (section 11.8) -/

/-- A two-byte field of a message, least significant byte first (log entry 19). -/
def messageField (low high : Byte) : BitVec 16 := high ++ low

/-- The command that a message's bytes, arriving on a link, spell: READY, CREDIT and DOWN with values the part can take,
and every other message malformed (R184). DESIGN CHOICE (log entry 30): a READY, a CREDIT or a DOWN with bytes missing or
bytes too many is malformed. -/
def decodePartnerMessage (link : Fin 4) : List Byte → Instr
  | [0x08#8, a0, a1, b0, b1, c0, c1, d0, d1] =>
    let i := Instr.ready link (messageField a0 a1) (messageField b0 b1) (messageField c0 c1) (messageField d0 d1)
    if i.wellFormed then i else .malformedMessage link
  | [0x09#8, lane, n0, n1] =>
    let i := Instr.credit link lane (messageField n0 n1)
    if i.wellFormed then i else .malformedMessage link
  | [0x05#8, field] => .down link field
  | _ => .malformedMessage link

/-- The bytes of a partner message (section 11.8); none for a row that is not a message of known type. -/
def encodePartnerMessage : Instr → Option (List Byte)
  | .ready _ a b c d =>
    some [0x08#8, a.setWidth 8, (a >>> 8).setWidth 8, b.setWidth 8, (b >>> 8).setWidth 8, c.setWidth 8,
      (c >>> 8).setWidth 8, d.setWidth 8, (d >>> 8).setWidth 8]
  | .credit _ lane n => some [0x09#8, lane, n.setWidth 8, (n >>> 8).setWidth 8]
  | .down _ field => some [0x05#8, field]
  | _ => none

end Sys2Proof
end

