-- ==== Sys2Proof/Machine/State.lean ====
section
/-! DEFINITION. The state of the part as plain data, block by block (00_scope.md, Block diagram), the reasons a step can stop, and the state after power-on. A table is a list of (number, value) with numbers rising; a number it does not list holds the value given beside the table (Machine/Table.lean). -/

namespace Sys2Proof.Machine

open Sys2Proof

/-- Numbered things of one kind, the ones that differ from their reset value listed with rising numbers. -/
abbrev Table (α : Type) := List (Nat × α)

/-! ### Traffic out of the part -/

/-- What the HP sends on the host link, in the order it was handed over (R177, R179). A record is one number of its
width, byte k of the record in bits 8k to 8k+7 (R181). -/
inductive HostTraffic where
  /-- a read request of an entry of the outstanding-read table (R177) -/
  | readRequest (entry address length : Nat)
  /-- a posted write of a completion record or a notice record (R122, R165) -/
  | write16 (address : Nat) (record : BitVec 128)
  /-- a posted write of an admin completion (R145) -/
  | write32 (address : Nat) (record : BitVec 256)
  /-- an interrupt message on a vector (R127, R128, R149) -/
  | interrupt (vector : Nat)
deriving DecidableEq, Repr

/-- What an LU sends to the partner (R69). -/
inductive LinkMessage where
  | offer (link : Nat)
  | header (lane cls flow length cellCount : Nat)
  | cell (bytes : List Byte)
  | endMarker (good : Bool)
  | down (link : Nat)
deriving DecidableEq, Repr

/-! ### Host Port -/

/-- A host read in flight (R177); `cutOff` when a host-link reset has cut its response off (R178). -/
structure HostRead where
  address : Nat
  length  : Nat
  timer   : Nat
  cutOff  : Bool
deriving DecidableEq, Repr

/-- The Host Port (R170 to R180). CONTROL.FUNCTION_RESET reads 1 exactly in RESETTING, so it is not stored (R172). -/
structure HpBlock where
  device      : DeviceState
  run         : Bool
  mode        : ContainmentMode
  configError : Bool
  asrBase     : Address
  asrSize     : Word32
  acrBase     : Address
  acrSize     : Word32
  nrBase      : Address
  nrSize      : Word32
  reads       : Table (Option HostRead)
  latch       : Bool
  out         : List HostTraffic
deriving DecidableEq, Repr

/-! ### Buffer Manager -/

/-- A frame record (R7). -/
structure FrameRecord where
  state      : FrameState
  ring       : Nat
  tag        : BitVec 32
  flow       : Nat
  length     : Nat
  cellCount  : Nat
  firstCell  : Nat
  lastCell   : Nat
  filled     : Nat
  fillCell   : Nat
  fillOffset : Nat
  sent       : Nat
  fetchEnded : Bool
  linkEnded  : Bool
  cutThrough : Bool
  cause      : Option FrameCause
deriving DecidableEq, Repr

/-- The reset value of every record (R7). -/
def FrameRecord.reset : FrameRecord :=
  { state := .free, ring := 0, tag := 0, flow := 0, length := 0, cellCount := 0, firstCell := 0, lastCell := 0,
    filled := 0, fillCell := 0, fillOffset := 0, sent := 0, fetchEnded := false, linkEnded := false,
    cutThrough := false, cause := none }

/-- A flow context (R21); queued frames is the length of the queue (R22). -/
structure FlowContext where
  state     : FlowState
  link      : Nat
  cls       : Nat
  cap       : Nat
  policy    : Policy
  threshold : Nat
  held      : Nat
  sent      : BitVec 32
  flushed   : Nat
  queue     : List Nat
deriving DecidableEq, Repr

/-- The reset value of every flow context (R21). -/
def FlowContext.reset : FlowContext :=
  { state := .unconfigured, link := 0, cls := 0, cap := 8192, policy := .hold, threshold := 0, held := 0, sent := 0,
    flushed := 0, queue := [] }

/-- The Buffer Manager (R1 to R38). `cells` is the cell data memory, byte `offset` of cell `c` at address
`256 * c + offset`; `links` holds a successor, or `none` for END; `fetchEnds` are the fetch ends on their way, `true`
for OK (R60). -/
structure BmBlock where
  cells       : List Host.Cell
  cellEcc     : Table Ecc
  links       : Table (Option Nat)
  linkEcc     : Table Ecc
  freeHead    : Option Nat
  freeTail    : Option Nat
  freeCount   : Nat
  frames      : Table FrameRecord
  frameEcc    : Table Ecc
  freeRecords : List Nat
  flows       : Table FlowContext
  fetchEnds   : List (Nat × Bool)
deriving DecidableEq, Repr

/-! ### Descriptor Fetch Unit -/

/-- A segment of a descriptor (section 11.2). -/
structure Segment where
  address : Nat
  length  : Nat
deriving DecidableEq, Repr

/-- A descriptor as read (section 11.2). -/
structure Descriptor where
  kind         : Nat
  segmentCount : Nat
  flow         : Nat
  tag          : BitVec 32
  length       : Nat
  segments     : List Segment
deriving DecidableEq, Repr

/-- The held copy of a descriptor, with its ring slot and cell need (R39). -/
structure HeldCopy where
  descriptor : Descriptor
  slot       : Nat
  need       : Nat
deriving DecidableEq, Repr

/-- A submission ring context (R39). -/
structure SqContext where
  state    : SqState
  base     : Address
  size     : Nat
  cq       : Nat
  limit    : Nat
  inFlight : Nat
  head     : Nat
  producer : Nat
  reading  : Bool
  held     : Option HeldCopy
deriving DecidableEq, Repr

/-- The reset value of every submission ring context (R39). -/
def SqContext.reset : SqContext :=
  { state := .absent, base := 0, size := 0, cq := 0, limit := 0, inFlight := 0, head := 0, producer := 0,
    reading := false, held := none }

/-- A fetch slot (R43). -/
inductive FetchSlot where
  | idle
  | descRead (ring ringSlot : Nat)
  | payload (ring record : Nat) (segments : List Segment) (current offset : Nat)
deriving DecidableEq, Repr

/-- An entry of the held list (R44); `stopped` once its admission request got no answer (R18). -/
structure HeldEntry where
  ring    : Nat
  ready   : Bool
  stopped : Bool
deriving DecidableEq, Repr

/-- The Descriptor Fetch Unit (R39 to R65). -/
structure DfuBlock where
  rings    : Table SqContext
  slots    : Table FetchSlot
  held     : List HeldEntry
  lastRing : Nat
deriving DecidableEq, Repr

/-! ### Link Units -/

/-- A busy serializer (R103); `stopped` once a report of it was refused (R18), and `lost` once its link has failed after
that, or ended its drain by a partner's DOWN (log entry 9). -/
structure Serializer where
  state     : SerializerState
  record    : Nat
  lane      : Nat
  cellCount : Nat
  sent      : Nat
  filled    : Nat
  nextCell  : Nat
  timer     : Option Nat
  stopped   : Bool
  lost      : Bool
deriving DecidableEq, Repr

/-- A link context (R66); the serializer is `none` when IDLE. A lane the tables do not list has credit 0. -/
structure LinkContext where
  state       : LinkState
  cause       : Option LinkCause
  announced   : Table Nat
  available   : Table Nat
  serializer  : Option Serializer
  offerTimer  : Option Nat
  linkUpTimer : Option Nat
  outstanding : Option LinkCommand
deriving DecidableEq, Repr

/-- The reset value of every link context (R66). -/
def LinkContext.reset : LinkContext :=
  { state := .disabled, cause := none, announced := [], available := [], serializer := none, offerTimer := none,
    linkUpTimer := none, outstanding := none }

/-- The Link Units (R66 to R85, R103 to R112). `aborts` are the abort orders on their way, (link, record) (R111); `out`
is what the links have sent, (link, message), oldest first (R69). -/
structure LuBlock where
  links  : Table LinkContext
  aborts : List (Nat × Nat)
  out    : List (Nat × LinkMessage)
deriving DecidableEq, Repr

/-! ### Egress Scheduler -/

/-- The scheduler fields of a link (R81, R86). A class the map does not list names lane 0; a calendar slot not listed is
BLANK (`none`). -/
structure Scheduler where
  classMap   : Table Nat
  mask       : BitVec 8
  expedited  : Nat
  active     : Table (Option Nat)
  shadow     : Table (Option Nat)
  pointer    : Nat
  activation : Bool
deriving DecidableEq, Repr

/-- The reset value of every link's scheduler fields (R81, R86). -/
def Scheduler.reset : Scheduler :=
  { classMap := [], mask := 0, expedited := 127, active := [], shadow := [], pointer := 0, activation := false }

/-- The Egress Scheduler (R86 to R102). `stopped` are the head records that an arbitration found uncorrectable (R18;
log entry 7). -/
structure EsBlock where
  schedulers : Table Scheduler
  stopped    : List Nat
deriving DecidableEq, Repr

/-! ### Completion Unit -/

/-- A completion ring context (R118); `phase = true` is phase 1. -/
structure CqContext where
  state     : CqState
  base      : Address
  size      : Nat
  vector    : Nat
  threshold : Nat
  holdoff   : Nat
  tail      : Nat
  consumer  : Nat
  phase     : Bool
  reserved  : Nat
  pending   : Nat
  timer     : Option Nat
deriving DecidableEq, Repr

/-- The reset value of every completion ring context (R118). -/
def CqContext.reset : CqContext :=
  { state := .absent, base := 0, size := 0, vector := 0, threshold := 0, holdoff := 0, tail := 0, consumer := 0,
    phase := true, reserved := 0, pending := 0, timer := none }

/-- The Completion Unit (R118 to R132). -/
structure CuBlock where
  rings : Table CqContext
deriving DecidableEq, Repr

/-! ### Admin Processor -/

/-- A long command's operation and the object it names (R133, R139). -/
inductive LongOperation where
  | flushFlow (flow : Nat)
  | deleteSq (ring : Nat)
  | enableLink (link : Nat)
  | disableLink (link : Nat)
  | activateCalendar (link : Nat)
deriving DecidableEq, Repr

/-- An entry of the outstanding list (R133). -/
structure Outstanding where
  operation : LongOperation
  tag       : BitVec 16
deriving DecidableEq, Repr

/-- The Admin Processor (R133). -/
structure ApBlock where
  state       : ApState
  asrHead     : Nat
  asrProducer : Nat
  acrTail     : Nat
  acrConsumer : Nat
  acrPhase    : Bool
  outstanding : List Outstanding
deriving DecidableEq, Repr

/-! ### Error Control -/

/-- A notice: its kind and parameters (R166). The admin ring is ring 32 (section 11.6). -/
inductive Notice where
  | ringError (ring slot : Nat)
  | indexError (port : Nat) (value : Word32)
  | linkFailed (link : Nat) (cause : LinkCause)
  | cellDataError (link cell : Nat)
  | correctableLimit (memory : ProtectedMemory) (count : Nat)
  | fatalError (cause : Option FatalCause)
  | selfResetDone (cause : Option FatalCause)
deriving DecidableEq, Repr

/-- A backlog entry (R167). -/
structure BacklogEntry where
  notice : Notice
  count  : Nat
deriving DecidableEq, Repr

/-- A report on its way from a reading block to the EC (R155). -/
inductive EccReport where
  | correction (memory : ProtectedMemory)
  | cellData (link cell : Nat)
  | fatal (cause : FatalCause)
deriving DecidableEq, Repr

/-- Error Control (R154). -/
structure EcBlock where
  cellDataCount   : Nat
  linkTableCount  : Nat
  frameTableCount : Nat
  threshold       : Nat
  fatalCause      : Option FatalCause
  multiple        : Bool
  nrTail          : Nat
  nrConsumer      : Nat
  nrPhase         : Bool
  backlog         : List BacklogEntry
  reports         : List EccReport
deriving DecidableEq, Repr

/-! ### The whole part -/

/-- The state of the part: its eight kinds of block, and the commands that wait, first in, first out. -/
structure State where
  hp      : HpBlock
  bm      : BmBlock
  dfu     : DfuBlock
  lu      : LuBlock
  es      : EsBlock
  cu      : CuBlock
  ap      : ApBlock
  ec      : EcBlock
  pending : List Instr
deriving DecidableEq, Repr

/-- The part never stops with a fault: every command the spec describes leaves the part in a state that takes further
commands, and a fatal error moves the device to FAILED, which is such a state (R158, R159). So no constructor: nothing
raises one, and that is safe. -/
inductive Fault where
deriving DecidableEq, Repr

/-- Why a command is refused. -/
inductive Refusal where
  /-- Raised only by an arm of `exec` whose command has no meaning yet. Safe: the machine stops where the hardware goes
  on. No arm raises it. -/
  | notModelled (mnemonic : String)
deriving DecidableEq, Repr

/-! ### Reset -/

/-- The HP after power-on (R171). -/
def HpBlock.reset : HpBlock :=
  { device := .stopped, run := false, mode := .halt, configError := false, asrBase := 0, asrSize := 0, acrBase := 0,
    acrSize := 0, nrBase := 0, nrSize := 0, reads := [], latch := false, out := [] }

/-- The BM after reinitialisation: every cell 0, the link table c to c + 1, every cell and record free, every flow
UNCONFIGURED (R1, R2, R3, R7, R8, R21). -/
def BmBlock.reset : BmBlock :=
  { cells := [], cellEcc := [], links := [], linkEcc := [], freeHead := some 0, freeTail := some 8191,
    freeCount := cellTotal, frames := [], frameEcc := [], freeRecords := List.range recordTotal, flows := [],
    fetchEnds := [] }

/-- The DFU after reinitialisation (R39, R43, R44, R47). -/
def DfuBlock.reset : DfuBlock := { rings := [], slots := [], held := [], lastRing := 31 }

/-- The LUs after reinitialisation (R66). -/
def LuBlock.reset : LuBlock := { links := [], aborts := [], out := [] }

/-- The ES after reinitialisation (R81, R86). -/
def EsBlock.reset : EsBlock := { schedulers := [], stopped := [] }

/-- The CU after reinitialisation (R118). -/
def CuBlock.reset : CuBlock := { rings := [] }

/-- The AP after power-on (R133). -/
def ApBlock.reset : ApBlock :=
  { state := .idle, asrHead := 0, asrProducer := 0, acrTail := 0, acrConsumer := 0, acrPhase := true,
    outstanding := [] }

/-- The EC after power-on (R154). -/
def EcBlock.reset : EcBlock :=
  { cellDataCount := 0, linkTableCount := 0, frameTableCount := 0, threshold := 256, fatalCause := none,
    multiple := false, nrTail := 0, nrConsumer := 0, nrPhase := true, backlog := [], reports := [] }

/-- The part right after power-on (R171), with no command waiting. -/
def State.reset : State :=
  { hp := HpBlock.reset, bm := BmBlock.reset, dfu := DfuBlock.reset, lu := LuBlock.reset, es := EsBlock.reset,
    cu := CuBlock.reset, ap := ApBlock.reset, ec := EcBlock.reset, pending := [] }

end Sys2Proof.Machine
end

