-- ==== Sys2Proof/Machine/Table.lean ====
section
/-! DEFINITION. Tables: reading and writing one entry in the canonical form, the fields of every block's tables, and State's updates block by block. -/

namespace Sys2Proof.Machine

open Sys2Proof

/-! ### One entry of a table -/

/-- The value of number `i`: the listed one, or what an unlisted number holds. -/
def tableGet {α : Type} (unlisted : Nat → α) : Table α → Nat → α
  | [], i => unlisted i
  | (k, v) :: t, i => if k = i then v else tableGet unlisted t i

/-- The table without number `i`. -/
def tableErase {α : Type} (i : Nat) : Table α → Table α
  | [] => []
  | (k, v) :: t => if k = i then tableErase i t else (k, v) :: tableErase i t

/-- The table with number `i` listed before the first greater number. -/
def tableInsert {α : Type} (i : Nat) (x : α) : Table α → Table α
  | [] => [(i, x)]
  | (k, v) :: t => if i < k then (i, x) :: (k, v) :: t else (k, v) :: tableInsert i x t

/-- Number `i` set to `x`: listed only where `x` differs from what an unlisted number holds. -/
def tableSet {α : Type} [DecidableEq α] (unlisted : Nat → α) (t : Table α) (i : Nat) (x : α) : Table α :=
  if x = unlisted i then tableErase i t else tableInsert i x (tableErase i t)

/-- The canonical form: numbers strictly rising, no entry equal to what an unlisted number holds. -/
def tableWf {α : Type} [DecidableEq α] (unlisted : Nat → α) : Table α → Bool
  | [] => true
  | (k, v) :: t => decide (v ≠ unlisted k) && t.all (fun e => decide (k < e.1)) && tableWf unlisted t

/-! ### What an unlisted number holds -/

/-- Every byte of every cell is zero after reinitialisation (R1). -/
def cellUnlisted : Nat → Byte := fun _ => 0
/-- The check bits are valid after reinitialisation (R1). -/
def eccUnlisted : Nat → Ecc := fun _ => .valid
/-- The entry of cell c holds c + 1, and that of cell 8191 END (R2). -/
def linkUnlisted : Nat → Option Nat := fun c => if c < 8191 then some (c + 1) else none
/-- A frame record's reset value (R7). -/
def frameUnlisted : Nat → FrameRecord := fun _ => FrameRecord.reset
/-- A flow context's reset value (R21). -/
def flowUnlisted : Nat → FlowContext := fun _ => FlowContext.reset
/-- A submission ring context's reset value (R39). -/
def sqUnlisted : Nat → SqContext := fun _ => SqContext.reset
/-- A fetch slot's reset value (R43). -/
def slotUnlisted : Nat → FetchSlot := fun _ => .idle
/-- A link context's reset value (R66). -/
def linkContextUnlisted : Nat → LinkContext := fun _ => LinkContext.reset
/-- A lane's credit where none is listed (R66). -/
def creditUnlisted : Nat → Nat := fun _ => 0
/-- A scheduler's reset value (R86). -/
def schedulerUnlisted : Nat → Scheduler := fun _ => Scheduler.reset
/-- A class names lane 0 (R81). -/
def laneUnlisted : Nat → Nat := fun _ => 0
/-- A calendar slot is BLANK (R86). -/
def calendarUnlisted : Nat → Option Nat := fun _ => none
/-- A completion ring context's reset value (R118). -/
def cqUnlisted : Nat → CqContext := fun _ => CqContext.reset
/-- An entry of the outstanding-read table is free (R177). -/
def readUnlisted : Nat → Option HostRead := fun _ => none

/-- The canonical form of the cell data memory. -/
def Memory.wf (m : List Host.Cell) : Bool := tableWf cellUnlisted m

/-! ### State's updates, block by block -/

def State.onHp (s : State) (f : HpBlock → HpBlock) : State := { s with hp := f s.hp }
def State.onBm (s : State) (f : BmBlock → BmBlock) : State := { s with bm := f s.bm }
def State.onDfu (s : State) (f : DfuBlock → DfuBlock) : State := { s with dfu := f s.dfu }
def State.onLu (s : State) (f : LuBlock → LuBlock) : State := { s with lu := f s.lu }
def State.onEs (s : State) (f : EsBlock → EsBlock) : State := { s with es := f s.es }
def State.onCu (s : State) (f : CuBlock → CuBlock) : State := { s with cu := f s.cu }
def State.onAp (s : State) (f : ApBlock → ApBlock) : State := { s with ap := f s.ap }
def State.onEc (s : State) (f : EcBlock → EcBlock) : State := { s with ec := f s.ec }

/-! ### Reading and writing what the blocks' tables hold -/

/-- The outstanding read of an entry, if any (R177). -/
def State.read (s : State) (i : Nat) : Option HostRead := tableGet readUnlisted s.hp.reads i
def State.setRead (s : State) (i : Nat) (r : Option HostRead) : State :=
  s.onHp fun b => { b with reads := tableSet readUnlisted b.reads i r }

/-- One byte of the cell data memory (R1). -/
def State.cellByte (s : State) (cell offset : Nat) : Byte := tableGet cellUnlisted s.bm.cells (cellBytes * cell + offset)
/-- A byte written with fresh check bits (R155). -/
def State.setCellByte (s : State) (cell offset : Nat) (x : Byte) : State :=
  s.onBm fun b => { b with
    cells := tableSet cellUnlisted b.cells (cellBytes * cell + offset) x,
    cellEcc := tableErase (cellBytes * cell + offset) b.cellEcc }

/-- The link entry of a cell: its successor, or `none` for END (R2). -/
def State.linkEntry (s : State) (cell : Nat) : Option Nat := tableGet linkUnlisted s.bm.links cell
/-- A link entry written with fresh check bits (R155). -/
def State.setLinkEntry (s : State) (cell : Nat) (x : Option Nat) : State :=
  s.onBm fun b => { b with links := tableSet linkUnlisted b.links cell x, linkEcc := tableErase cell b.linkEcc }

/-- A frame record (R7). -/
def State.frame (s : State) (r : Nat) : FrameRecord := tableGet frameUnlisted s.bm.frames r
def State.setFrame (s : State) (r : Nat) (f : FrameRecord) : State :=
  s.onBm fun b => { b with frames := tableSet frameUnlisted b.frames r f }

/-- A flow context (R21). -/
def State.flow (s : State) (f : Nat) : FlowContext := tableGet flowUnlisted s.bm.flows f
def State.setFlow (s : State) (f : Nat) (c : FlowContext) : State :=
  s.onBm fun b => { b with flows := tableSet flowUnlisted b.flows f c }

/-- A submission ring context (R39). -/
def State.sq (s : State) (n : Nat) : SqContext := tableGet sqUnlisted s.dfu.rings n
def State.setSq (s : State) (n : Nat) (c : SqContext) : State :=
  s.onDfu fun b => { b with rings := tableSet sqUnlisted b.rings n c }

/-- A fetch slot (R43). -/
def State.slot (s : State) (i : Nat) : FetchSlot := tableGet slotUnlisted s.dfu.slots i
def State.setSlot (s : State) (i : Nat) (x : FetchSlot) : State :=
  s.onDfu fun b => { b with slots := tableSet slotUnlisted b.slots i x }

/-- A link context (R66). -/
def State.link (s : State) (l : Nat) : LinkContext := tableGet linkContextUnlisted s.lu.links l
def State.setLink (s : State) (l : Nat) (c : LinkContext) : State :=
  s.onLu fun b => { b with links := tableSet linkContextUnlisted b.links l c }

/-- The available credit of a lane of a link (R71). -/
def State.available (s : State) (l lane : Nat) : Nat := tableGet creditUnlisted (s.link l).available lane
/-- The announced credit of a lane of a link (R71). -/
def State.announced (s : State) (l lane : Nat) : Nat := tableGet creditUnlisted (s.link l).announced lane
def State.setAvailable (s : State) (l lane n : Nat) : State :=
  s.setLink l { s.link l with available := tableSet creditUnlisted (s.link l).available lane n }

/-- The scheduler fields of a link (R86). -/
def State.sched (s : State) (l : Nat) : Scheduler := tableGet schedulerUnlisted s.es.schedulers l
def State.setSched (s : State) (l : Nat) (c : Scheduler) : State :=
  s.onEs fun b => { b with schedulers := tableSet schedulerUnlisted b.schedulers l c }

/-- A completion ring context (R118). -/
def State.cq (s : State) (n : Nat) : CqContext := tableGet cqUnlisted s.cu.rings n
def State.setCq (s : State) (n : Nat) (c : CqContext) : State :=
  s.onCu fun b => { b with rings := tableSet cqUnlisted b.rings n c }

/-- Traffic handed to the HP (R179). -/
def State.emit (s : State) (t : HostTraffic) : State := s.onHp fun b => { b with out := b.out ++ [t] }

/-- A message sent on a link (R69). -/
def State.send (s : State) (l : Nat) (m : LinkMessage) : State := s.onLu fun b => { b with out := b.out ++ [(l, m)] }

/-- One slot further on a ring: add one modulo the size (00_scope.md, Rings and indexes). -/
def advance (size i : Nat) : Nat := (i + 1) % size

/-- The distance from `b` up to `a` on a ring: their difference modulo the size (00_scope.md, Rings and indexes). -/
def ringDistance (size a b : Nat) : Nat := (a + size - b) % size

end Sys2Proof.Machine
end

