-- ==== Sys2Proof/Machine/Operands.lean ====
section
/-! DEFINITION. Record and message formats as the part reads and writes them (R181, R182, sections 11.2 to 11.9), the numeric codes of every enumerated field, and the range checks on operands. -/

namespace Sys2Proof

/-! ### Codes -/

/-- The status codes of a completion record (section 11.3). -/
def FrameStatus.code : FrameStatus → Nat
  | .sent => 0 | .hostReadError => 1 | .fetchAborted => 2 | .underrun => 3 | .dataError => 4 | .linkLost => 5
  | .flushed => 6 | .invalidDescriptor => 7 | .flowNotReady => 8 | .droppedNoBuffer => 9 | .ringDeleted => 10

/-- The subcodes of a completion record (section 11.3). -/
def Subcode.code : Subcode → Nat
  | .none => 0 | .badKind => 1 | .badFlow => 2 | .badLength => 3 | .badSegments => 4 | .exceedsCap => 5

/-- The status codes of an admin completion (section 11.5). -/
def AdminStatus.code : AdminStatus → Nat
  | .ok => 0 | .busy => 1 | .badParameter => 2 | .badState => 3 | .notFound => 4 | .timeout => 5 | .aborted => 6
  | .unknownCommand => 7

/-- The flow states of a QUERY_FLOW result (section 11.5). -/
def FlowState.code : FlowState → Nat
  | .unconfigured => 0 | .disabled => 1 | .enabled => 2 | .flushing => 3

/-- The link states of a QUERY_LINK result (section 11.5). -/
def LinkState.code : LinkState → Nat
  | .disabled => 0 | .awaitPartner => 1 | .active => 2 | .draining => 3 | .failed => 4

/-- The link causes of a QUERY_LINK result and a LINK_FAILED notice (sections 11.5, 11.6). -/
def LinkCause.code : LinkCause → Nat
  | .partnerDown => 1 | .creditOverflow => 2 | .protocol => 3 | .containment => 4

/-- The fatal causes of a notice and of STATUS (sections 11.6, 11.9). -/
def FatalCause.code : FatalCause → Nat
  | .linkTableUncorrectable => 1 | .frameTableUncorrectable => 2

/-- The memories of a CORRECTABLE_LIMIT notice (section 11.6). -/
def ProtectedMemory.code : ProtectedMemory → Nat
  | .cellData => 0 | .linkTable => 1 | .frameTable => 2

/-- The device states of STATUS (section 11.9). -/
def DeviceState.code : DeviceState → Nat
  | .stopped => 0 | .running => 1 | .failed => 2 | .selfResetting => 3 | .resetting => 4

/-- The containment modes of CONTROL (section 11.9). -/
def ContainmentMode.code : ContainmentMode → Nat
  | .halt => 0 | .haltLinksDown => 1 | .selfReset => 2

end Sys2Proof

namespace Sys2Proof.Machine

open Sys2Proof

/-! ### Little-endian records (R181) -/

/-- The number held by `width` bytes at byte `offset` of a record of `n` bits. -/
def recordField {n : Nat} (r : BitVec n) (offset width : Nat) : Nat := (r.extractLsb' (8 * offset) (8 * width)).toNat

/-- A record of `n` bits with each (offset, width, value) of the list in its place and every other byte 0, as R182 asks
of what the part writes. -/
def layout (n : Nat) : List (Nat × Nat × Nat) → BitVec n
  | [] => 0
  | (offset, width, value) :: rest => BitVec.ofNat n (value % 2 ^ (8 * width)) <<< (8 * offset) ||| layout n rest

/-- 1 for yes, set or phase 1; 0 otherwise. -/
def bit (b : Bool) : Nat := if b then 1 else 0

/-! ### Transmit descriptor (section 11.2) -/

/-- Segment entry `k` of a descriptor: the address at 16 + 12k and the length at 24 + 12k. -/
def descriptorSegment (r : BitVec 512) (k : Nat) : Segment :=
  { address := recordField r (16 + 12 * k) 8, length := recordField r (24 + 12 * k) 4 }

/-- The descriptor that 64 bytes of a ring slot hold; the reserved bytes are not examined (R182). -/
def decodeDescriptor (r : BitVec 512) : Descriptor :=
  { kind := recordField r 0 1, segmentCount := recordField r 1 1, flow := recordField r 2 2,
    tag := BitVec.ofNat 32 (recordField r 4 4), length := recordField r 8 4,
    segments := [descriptorSegment r 0, descriptorSegment r 1, descriptorSegment r 2, descriptorSegment r 3] }

/-- The segments named by the segment count; entries beyond it are not examined (R52). -/
def Descriptor.used (d : Descriptor) : List Segment := d.segments.take d.segmentCount

/-- ceil(length/256), the cells a frame occupies (R1). -/
def cellNeed (length : Nat) : Nat := (length + 255) / cellBytes

/-- Check 4 of R52: 1 to 4 segments, none of length 0, lengths that sum to the length, without overflow (R181). -/
def segmentsOk (d : Descriptor) : Bool :=
  decide (1 ≤ d.segmentCount) && decide (d.segmentCount ≤ 4) && d.used.all (fun g => decide (g.length ≠ 0))
    && decide ((d.used.map Segment.length).sum = d.length)

/-! ### Decoded fields -/

/-- RUN, bit 0 of a CONTROL write (section 11.9). -/
def controlRun (w : Word32) : Bool := w.getLsbD 0

/-- FUNCTION_RESET, bit 1 of a CONTROL write (section 11.9). -/
def controlFunctionReset (w : Word32) : Bool := w.getLsbD 1

/-- The mode that CONTROL bits 4 to 5 name; 3 names none (R185). -/
def controlMode (w : Word32) : Option ContainmentMode :=
  match (w.extractLsb' 4 2).toNat with
  | 0 => some .halt
  | 1 => some .haltLinksDown
  | 2 => some .selfReset
  | _ => none

/-- The policy that a byte of CONFIGURE_FLOW names (section 11.4). -/
def policyOf (b : BitVec 8) : Option Policy :=
  match b.toNat with
  | 0 => some .hold
  | 1 => some .discard
  | _ => none

/-- The code of an absent cause is 0. -/
def causeCode (c : Option LinkCause) : Nat :=
  match c with
  | none => 0
  | some x => x.code

/-- The code of an absent fatal cause is 0. -/
def fatalCode (c : Option FatalCause) : Nat :=
  match c with
  | none => 0
  | some x => x.code

/-- The kind of a long command (section 11.4). -/
def LongOperation.kind : LongOperation → Nat
  | .flushFlow _ => 0x13 | .deleteSq _ => 0x02 | .enableLink _ => 0x20 | .disableLink _ => 0x21
  | .activateCalendar _ => 0x31

/-- The completion status that a cause decides (R116). -/
def frameStatus : Option FrameCause → FrameStatus
  | none => .sent
  | some .hostReadError => .hostReadError
  | some .fetchAborted => .fetchAborted
  | some .underrun => .underrun
  | some .dataError => .dataError
  | some .linkLost => .linkLost
  | some .flushed => .flushed

/-- The number of a notice's kind (section 11.6). -/
def Notice.kind : Notice → Nat
  | .ringError .. => 1 | .indexError .. => 2 | .linkFailed .. => 3 | .cellDataError .. => 4
  | .correctableLimit .. => 5 | .fatalError .. => 6 | .selfResetDone .. => 7

/-- The parameter fields of a notice record (section 11.6). -/
def Notice.parameters : Notice → List (Nat × Nat × Nat)
  | .ringError ring slot => [(4, 1, ring), (6, 2, slot)]
  | .indexError port value => [(4, 1, port), (8, 4, value.toNat)]
  | .linkFailed link cause => [(4, 1, link), (5, 1, cause.code)]
  | .cellDataError link cell => [(4, 1, link), (6, 2, cell)]
  | .correctableLimit memory count => [(4, 1, memory.code), (8, 2, count)]
  | .fatalError cause => [(4, 1, fatalCode cause)]
  | .selfResetDone cause => [(4, 1, fatalCode cause)]

/-! ### Records the part writes -/

/-- A completion record (section 11.3). -/
def completionRecord (tag : BitVec 32) (head ring : Nat) (status : FrameStatus) (subcode : Subcode) (sent : Nat)
    (cutThrough phase : Bool) : BitVec 128 :=
  layout 128 [(0, 4, tag.toNat), (4, 2, head), (6, 1, ring), (7, 1, status.code), (8, 1, subcode.code), (9, 1, sent),
    (10, 1, bit cutThrough), (15, 1, bit phase)]

/-- An admin completion (section 11.5); `result` is the number in bytes 8 to 27. -/
def adminRecord (tag : BitVec 16) (kind : Nat) (status : AdminStatus) (head result : Nat) (phase : Bool) : BitVec 256 :=
  layout 256 [(0, 2, tag.toNat), (2, 1, kind), (3, 1, status.code), (4, 2, head), (8, 20, result), (31, 1, bit phase)]

/-- A notice record (section 11.6). -/
def noticeRecord (n : Notice) (count : Nat) (phase : Bool) : BitVec 128 :=
  layout 128 ((0, 1, n.kind) :: (2, 2, count) :: n.parameters ++ [(15, 1, bit phase)])

/-- The bytes of a message the part sends (section 11.8); two-byte fields least significant byte first (log entry 19). -/
def LinkMessage.bytes : LinkMessage → List Byte
  | .offer link => [0x01#8, BitVec.ofNat 8 link]
  | .header lane cls flow length cellCount =>
    [0x02#8, BitVec.ofNat 8 lane, BitVec.ofNat 8 cls, BitVec.ofNat 8 flow, BitVec.ofNat 8 cellCount,
      BitVec.ofNat 8 length, BitVec.ofNat 8 (length / 256)]
  | .cell bytes => 0x03#8 :: bytes
  | .endMarker good => [0x04#8, if good then 0#8 else 1#8]
  | .down link => [0x05#8, BitVec.ofNat 8 link]

/-! ### Range checks -/

/-- Entry `j` of a WRITE_CALENDAR: BLANK where it equals the blank code, the flow of its value otherwise (R96). -/
def calendarEntry (entries : BitVec 448) (blank : BitVec 8) (j : Nat) : Option Nat :=
  let v := (entries.extractLsb' (7 * j) 7).toNat
  if v = blank.toNat then none else some v

/-- The lane of class `c` in a SET_CLASS_MAP (section 11.4). -/
def classLane (lanes : BitVec 64) (c : Nat) : Nat := (lanes.extractLsb' (8 * c) 8).toNat

end Sys2Proof.Machine
end

