-- ==== Sys2Proof/Machine/Flags.lean ====
section
/-! DEFINITION. The flags the part raises towards the host: the vector-0 latch (R149), the notice unit and its backlog (R165 to R169), and the CONTROL and STATUS words (section 11.9). -/

namespace Sys2Proof.Machine

open Sys2Proof

/-! ### The vector-0 latch -/

/-- After a record written into the ACR or the NR: a message on vector 0 where the latch is clear, and the latch set
(R149). -/
def signalVector0 (s : State) : State :=
  if s.hp.latch then s else (s.emit (.interrupt 0)).onHp fun b => { b with latch := true }

/-- The latch cleared by a write to port 49 or 50 that the HP takes (R149). -/
def clearLatch (s : State) : State := s.onHp fun b => { b with latch := false }

/-! ### Notices -/

/-- Whether the NR has room: (tail − consumer index) mod size is below size − 1 (R165). -/
def nrRoom (s : State) : Bool :=
  decide (ringDistance s.hp.nrSize.toNat s.ec.nrTail s.ec.nrConsumer < s.hp.nrSize.toNat - 1)

/-- A notice record written at the NR tail, the tail advanced, the phase inverted at the wrap, and the latch handled
(R165). -/
def writeNotice (n : Notice) (count : Nat) (s : State) : State :=
  let size := s.hp.nrSize.toNat
  let s1 := s.emit (.write16 (s.hp.nrBase.toNat + 16 * s.ec.nrTail) (noticeRecord n count s.ec.nrPhase))
  let s2 := s1.onEc fun b => { b with
    nrTail := advance size b.nrTail,
    nrPhase := if b.nrTail + 1 = size then !b.nrPhase else b.nrPhase }
  signalVector0 s2

/-- A notice put in the backlog: merged into the entry of its kind, the count stopping at 65535, or appended (R167). -/
def mergeBacklog (n : Notice) : List BacklogEntry → List BacklogEntry
  | [] => [{ notice := n, count := 1 }]
  | e :: rest =>
    if e.notice.kind = n.kind then { e with count := if e.count < largestOccurrence then e.count + 1 else e.count } :: rest
    else e :: mergeBacklog n rest

/-- A notice placed in the backlog. -/
def postponeNotice (n : Notice) (s : State) : State := s.onEc fun b => { b with backlog := mergeBacklog n b.backlog }

/-- A notice raised: written where the backlog is empty and the ring has room, put in the backlog otherwise (R165); in
STOPPED always put in the backlog; in RESETTING discarded (R169). -/
def raiseNotice (n : Notice) (s : State) : State :=
  match s.hp.device with
  | .resetting => s
  | .stopped => postponeNotice n s
  | .running | .failed | .selfResetting =>
    if s.ec.backlog.isEmpty && nrRoom s then writeNotice n 1 s else postponeNotice n s

/-- The entries of a backlog written into the NR, oldest first, while it has room; the rest stay (R168). -/
def drainEntries : List BacklogEntry → State → State
  | [], s => s.onEc fun b => { b with backlog := [] }
  | e :: rest, s =>
    if nrRoom s then drainEntries rest (writeNotice e.notice e.count s)
    else s.onEc fun b => { b with backlog := e :: rest }

/-- The backlog drained (R168, R169). -/
def drainBacklog (s : State) : State := drainEntries s.ec.backlog s

/-- A report sent by a reading block to the EC in the event of its read (R155). -/
def sendReport (r : EccReport) (s : State) : State := s.onEc fun b => { b with reports := b.reports ++ [r] }

/-! ### CONTROL and STATUS (section 11.9) -/

/-- CONTROL as read: RUN, FUNCTION_RESET (1 exactly in RESETTING), the stored mode (R172). -/
def controlWord (s : State) : Word32 :=
  BitVec.ofNat 32 (bit s.hp.run + 2 * bit (decide (s.hp.device = .resetting)) + 16 * s.hp.mode.code)

/-- STATUS as read: device state, fatal cause, MULTIPLE, CONFIG_ERROR (R175). -/
def statusWord (s : State) : Word32 :=
  BitVec.ofNat 32 (s.hp.device.code + 16 * fatalCode s.ec.fatalCause + 256 * bit s.ec.multiple
    + 512 * bit s.hp.configError)

end Sys2Proof.Machine
end

