-- ==== Sys2Proof/Machine/Ops.lean ====
section
/-! DEFINITION. The operations shared by the commands over the Host Port, the admin rings and the completion rings: host reads (R177, R178), admin completions and the AP's command read (R136, R145), reservations, completion records and interrupt coalescing (R120 to R127). -/

namespace Sys2Proof.Machine

open Sys2Proof

/-! ### Host reads -/

/-- Whether every entry of the outstanding-read table is free (R161, R174). -/
def readsEmpty (s : State) : Bool := (List.range readTotal).all fun i => (s.read i).isNone

/-- A read issued: the entry filled, its timer at 10 ms, the request sent (R177). -/
def issueRead (entry address length : Nat) (s : State) : State :=
  (s.setRead entry (some { address := address, length := length, timer := readTimeoutUs, cutOff := false })).emit
    (.readRequest entry address length)

/-! ### Admin completions and the admin submission ring -/

/-- The ACR slots the AP has promised: one per outstanding command, and one while it is READING (R136). -/
def acrReserved (s : State) : Nat := s.ap.outstanding.length + (if s.ap.state = .reading then 1 else 0)

/-- The admin completions written and not yet consumed (R136). -/
def acrUnconsumed (s : State) : Nat := ringDistance s.hp.acrSize.toNat s.ap.acrTail s.ap.acrConsumer

/-- The ACR free count (R136). -/
def acrFree (s : State) : Nat := s.hp.acrSize.toNat - 1 - acrUnconsumed s - acrReserved s

/-- The ASR pending count (R135). -/
def asrPending (s : State) : Nat := ringDistance s.hp.asrSize.toNat s.ap.asrProducer s.ap.asrHead

/-- The conditions under which the AP starts a command read (R136). -/
def commandReadAllowed (s : State) : Bool :=
  decide (s.hp.device = .running) && decide (s.ap.state = .idle) && decide (0 < asrPending s) && decide (1 ≤ acrFree s)

/-- The AP starts a command read if R136 allows it: READING, and a 64-byte read at ASR base + 64 × head. -/
def startCommandRead (s : State) : State :=
  if commandReadAllowed s then
    issueRead adminReadEntry (s.hp.asrBase.toNat + recordReadBytes * s.ap.asrHead) recordReadBytes
      (s.onAp fun b => { b with state := .reading })
  else s

/-- An admin completion written at the ACR tail with the ASR head of the moment, the tail advanced, the phase inverted at
the wrap, and the latch handled (R145). -/
def adminComplete (tag : BitVec 16) (kind : Nat) (status : AdminStatus) (result : Nat) (s : State) : State :=
  let size := s.hp.acrSize.toNat
  let s1 := s.emit (.write32 (s.hp.acrBase.toNat + 32 * s.ap.acrTail)
    (adminRecord tag kind status s.ap.asrHead result s.ap.acrPhase))
  let s2 := s1.onAp fun b => { b with
    acrTail := advance size b.acrTail,
    acrPhase := if b.acrTail + 1 = size then !b.acrPhase else b.acrPhase }
  signalVector0 s2

/-- The first entry of an outstanding list with the operation, and the list without it. -/
def takeOutstanding (op : LongOperation) : List Outstanding → Option (Outstanding × List Outstanding)
  | [] => none
  | e :: rest =>
    if e.operation = op then some (e, rest)
    else match takeOutstanding op rest with
      | none => none
      | some (x, others) => some (x, e :: others)

/-- The end of a long command's operation: its admin completion written and its entry removed (R142). -/
def endLong (op : LongOperation) (status : AdminStatus) (result : Nat) (s : State) : State :=
  match takeOutstanding op s.ap.outstanding with
  | none => s
  | some (e, rest) =>
    adminComplete e.tag op.kind status result (s.onAp fun b => { b with outstanding := rest })

/-- A long command taken, at the tail of the outstanding list (R142). -/
def appendOutstanding (op : LongOperation) (tag : BitVec 16) (s : State) : State :=
  s.onAp fun b => { b with outstanding := b.outstanding ++ [{ operation := op, tag := tag }] }

/-- Every outstanding command completed ABORTED, in list order (R152). -/
def abortOutstanding : List Outstanding → State → State
  | [], s => s.onAp fun b => { b with outstanding := [] }
  | e :: rest, s => abortOutstanding rest (adminComplete e.tag e.operation.kind .aborted 0 s)

/-! ### Completion rings -/

/-- Records written and not yet consumed (R120). -/
def CqContext.unconsumed (c : CqContext) : Nat := ringDistance c.size c.tail c.consumer

/-- The free count of a completion ring (R120). -/
def CqContext.free (c : CqContext) : Nat := c.size - 1 - c.unconsumed - c.reserved

/-- A reservation (R121). -/
def cqReserve (n : Nat) (s : State) : State := s.setCq n { s.cq n with reserved := (s.cq n).reserved + 1 }

/-- A release (R121). -/
def cqRelease (n : Nat) (s : State) : State := s.setCq n { s.cq n with reserved := (s.cq n).reserved - 1 }

/-- Interrupt coalescing in the event of a record write (R127): pending rises; at the threshold a message is sent,
pending is 0 and the timer stops; else the first record after a message starts the holdoff timer. -/
def coalesce (n : Nat) (s : State) : State :=
  let c := s.cq n
  let p := c.pending + 1
  if c.threshold ≤ p then (s.setCq n { c with pending := 0, timer := none }).emit (.interrupt c.vector)
  else if p = 1 ∧ 0 < c.holdoff then s.setCq n { c with pending := p, timer := some c.holdoff }
  else s.setCq n { c with pending := p }

/-- A completion record written at the tail of the ring bound to a submission ring, with that ring's head of the moment
(R122, R124). -/
def writeCompletion (ring : Nat) (tag : BitVec 32) (status : FrameStatus) (subcode : Subcode) (cutThrough : Bool)
    (sent : Nat) (s : State) : State :=
  let n := (s.sq ring).cq
  let c := s.cq n
  let s1 := s.emit (.write16 (c.base.toNat + 16 * c.tail)
    (completionRecord tag (s.sq ring).head ring status subcode sent cutThrough c.phase))
  let s2 := s1.setCq n { c with
    tail := advance c.size c.tail,
    phase := if c.tail + 1 = c.size then !c.phase else c.phase,
    reserved := c.reserved - 1 }
  coalesce n s2

/-! ### Counts of a submission ring -/

/-- A ring's in-flight count falls by one (R61). -/
def lowerInFlight (ring : Nat) (s : State) : State :=
  s.setSq ring { s.sq ring with inFlight := (s.sq ring).inFlight - 1 }

/-- A deletion's end where the ring is DELETING and its in-flight count is 0: the ring ABSENT with its reset values, and
the DELETE_SQ completed OK (R64). -/
def endDeletion (ring : Nat) (s : State) : State :=
  if (s.sq ring).state = .deleting ∧ (s.sq ring).inFlight = 0 then
    endLong (.deleteSq ring) .ok 0 (s.setSq ring SqContext.reset)
  else s

/-- A descriptor that leaves the DFU without admission: its completion written at once, and the in-flight count lowered
(R53). -/
def completeUnadmitted (ring : Nat) (tag : BitVec 32) (status : FrameStatus) (subcode : Subcode) (s : State) : State :=
  lowerInFlight ring (writeCompletion ring tag status subcode false 0 s)

/-- The marks of the held descriptors that the predicate picks set to yes (R56). -/
def markReady (p : HeldEntry → Bool) (s : State) : State :=
  s.onDfu fun b => { b with held := b.held.map fun e => if p e then { e with ready := true } else e }

/-- Every held descriptor marked retry-ready, as on any frame retirement (R56). -/
def markAllReady (s : State) : State := markReady (fun _ => true) s

/-- Every held descriptor that names a flow marked retry-ready (R31, R56). -/
def markFlowReady (flow : Nat) (s : State) : State :=
  markReady (fun e => match (s.sq e.ring).held with
    | some h => decide (h.descriptor.flow = flow)
    | none => false) s

/-- A ring's held copy cleared and its entry taken off the held list (R44). -/
def clearHeld (ring : Nat) (s : State) : State :=
  (s.setSq ring { s.sq ring with held := none }).onDfu fun b =>
    { b with held := b.held.filter fun e => decide (e.ring ≠ ring) }

end Sys2Proof.Machine
end

