-- ==== Sys2Proof/Machine/Pool.lean ====
section
/-! DEFINITION. The Buffer Manager's operations: checks of the protected memories (R17, R18, R155), allocation and release (R5, R6), admission (R12, R13), the fill (R14), a frame's departure from its queue, and retirement (R115). -/

namespace Sys2Proof.Machine

open Sys2Proof

/-! ### Check bits -/

/-- The worse of two conditions of the check bits (log entry 4). -/
def worseEcc : Ecc → Ecc → Ecc
  | .uncorrectable, _ | _, .uncorrectable => .uncorrectable
  | .oneBit, _ | _, .oneBit => .oneBit
  | .valid, .valid => .valid

/-- What a disturbance leaves the check bits showing. -/
def upsetEcc (severe : Bool) : Ecc := if severe then .uncorrectable else .oneBit

/-- The check bits of one byte, entry or record after a disturbance. -/
def strikeMark (marks : Table Ecc) (i : Nat) (severe : Bool) : Table Ecc :=
  tableSet eccUnlisted marks i (worseEcc (tableGet eccUnlisted marks i) (upsetEcc severe))

/-- The state after one disturbance of a protected memory (log entry 4). -/
def strikeOne (s : State) : Upset → State
  | .cellByte c o severe => s.onBm fun b => { b with cellEcc := strikeMark b.cellEcc (cellBytes * c.val + o.val) severe }
  | .linkEntry c severe => s.onBm fun b => { b with linkEcc := strikeMark b.linkEcc c.val severe }
  | .frameRecord r severe => s.onBm fun b => { b with frameEcc := strikeMark b.frameEcc r.val severe }

/-- The state after the disturbances that came since the last command. -/
def strike (upsets : List Upset) (s : State) : State := upsets.foldl strikeOne s

/-- The BM's check of a frame record it accesses: a one-bit error is corrected, written back and reported; an
uncorrectable one is reported, and the event that accesses it is not carried out (R17, R18). -/
def checkRecord (r : Nat) (s : State) : Bool × State :=
  match tableGet eccUnlisted s.bm.frameEcc r with
  | .valid => (true, s)
  | .oneBit => (true, sendReport (.correction .frameTable) (s.onBm fun b => { b with frameEcc := tableErase r b.frameEcc }))
  | .uncorrectable => (false, sendReport (.fatal .frameTableUncorrectable) s)

/-- The check of a link entry read in an allocation, a fill or a transmission (R17, R18). -/
def checkLink (c : Nat) (s : State) : Bool × State :=
  match tableGet eccUnlisted s.bm.linkEcc c with
  | .valid => (true, s)
  | .oneBit => (true, sendReport (.correction .linkTable) (s.onBm fun b => { b with linkEcc := tableErase c b.linkEcc }))
  | .uncorrectable => (false, sendReport (.fatal .linkTableUncorrectable) s)

/-- The checks of several link entries in the order they are read, up to the first uncorrectable one. -/
def checkLinks : List Nat → State → Bool × State
  | [], s => (true, s)
  | c :: rest, s =>
    match checkLink c s with
    | (true, s1) => checkLinks rest s1
    | (false, s1) => (false, s1)

/-- The checks of several frame records in the order they are accessed, up to the first uncorrectable one. -/
def checkRecords : List Nat → State → Bool × State
  | [], s => (true, s)
  | r :: rest, s =>
    match checkRecord r s with
    | (true, s1) => checkRecords rest s1
    | (false, s1) => (false, s1)

/-- The check of the first `n` bytes of a cell as the LU reads it for sending: each one-bit error corrected, written back
and reported; whether no byte shows an uncorrectable error (R1, R17, R106). DESIGN CHOICE (log entry 35): a byte is what
is checked, each byte corrected has its report, those beside an uncorrectable byte too, and any number of uncorrectable
bytes makes one report. -/
def checkCell (cell n : Nat) (s : State) : Bool × State :=
  let inRange : Nat × Ecc → Bool := fun e =>
    decide (cellBytes * cell ≤ e.1) && decide (e.1 < cellBytes * cell + n)
  let corrected := s.bm.cellEcc.filter fun e => inRange e && decide (e.2 = .oneBit)
  let s1 := s.onBm fun b => { b with cellEcc := b.cellEcc.filter fun e => !(inRange e && decide (e.2 = .oneBit)) }
  let s2 := s1.onEc fun b => { b with reports := b.reports ++ corrected.map fun _ => .correction .cellData }
  (!s.bm.cellEcc.any fun e => inRange e && decide (e.2 = .uncorrectable), s2)

/-! ### Allocation and release -/

/-- The first `n` cells of the chain that begins at `c`, through the link table (R2). -/
def chainFrom (s : State) : Nat → Nat → List Nat
  | 0, _ => []
  | n + 1, c => c :: (match s.linkEntry c with
    | none => []
    | some d => chainFrom s n d)

/-- The cells an allocation of `n` cells takes: the first `n` of the free cell list (R5). -/
def allocationCells (s : State) (n : Nat) : List Nat :=
  match s.bm.freeHead with
  | none => []
  | some c => chainFrom s n c

/-- The link entries an allocation of `n` cells reads: those of its first n − 1 cells, and that of the last where the
list does not become empty (R5). -/
def allocationReads (s : State) (n : Nat) : List Nat :=
  if n < s.bm.freeCount then allocationCells s n else (allocationCells s n).dropLast

/-- An allocation of `n` cells whose reads passed: the head moved past them, END written into the last one's entry, the
count lowered (R5). -/
def allocate (n : Nat) (s : State) : State :=
  let last := (allocationCells s n).getLastD 0
  if n < s.bm.freeCount then
    (s.onBm fun b => { b with freeHead := s.linkEntry last, freeCount := b.freeCount - n }).setLinkEntry last none
  else s.onBm fun b => { b with freeHead := none, freeTail := none, freeCount := b.freeCount - n }

/-- A frame's whole chain joined to the tail of the free cell list (R6). -/
def releaseCells (f : FrameRecord) (s : State) : State :=
  let s1 := match s.bm.freeTail with
    | none => s.onBm fun b => { b with freeHead := some f.firstCell }
    | some t => s.setLinkEntry t (some f.firstCell)
  s1.onBm fun b => { b with freeTail := some f.lastCell, freeCount := b.freeCount + f.cellCount }

/-- A record written back to its reset values and appended to the free record list (R10). -/
def releaseRecord (r : Nat) (s : State) : State :=
  (s.setFrame r FrameRecord.reset).onBm fun b => { b with freeRecords := b.freeRecords ++ [r] }

/-! ### Admission -/

/-- The BM's answer to an admission request; `noAnswer` where it found an uncorrectable error (R12, R18). -/
inductive Admission where
  | admitted (record : Nat)
  | notReady
  | noRoom
  | noAnswer
deriving DecidableEq, Repr

/-- The record an admission writes (R13). -/
def admittedRecord (ring : Nat) (d : Descriptor) (need first last : Nat) : FrameRecord :=
  { state := .filling, ring := ring, tag := d.tag, flow := d.flow, length := d.length, cellCount := need,
    firstCell := first, lastCell := last, filled := 0, fillCell := first, fillOffset := 0, sent := 0,
    fetchEnded := false, linkEnded := false, cutThrough := false, cause := none }

/-- The changes of an admission that passed every check (R13). -/
def admitRecord (ring : Nat) (d : Descriptor) (need r : Nat) (s : State) : State :=
  let cells := allocationCells s need
  let s1 := allocate need s
  let s2 := s1.onBm fun b => { b with freeRecords := b.freeRecords.drop 1 }
  let s3 := s2.setFrame r (admittedRecord ring d need (cells.headD 0) (cells.getLastD 0))
  let c := s3.flow d.flow
  s3.setFlow d.flow { c with queue := c.queue ++ [r], held := c.held + need }

/-- An admission request taken whole: the checks in order, and the admission if all pass (R12, R13). The record taken and
the link entries read are checked first (log entry 6). -/
def requestAdmission (ring : Nat) (d : Descriptor) (need : Nat) (s : State) : Admission × State :=
  let c := s.flow d.flow
  if c.state ≠ .enabled then (.notReady, s)
  else if c.cap < c.held + need then (.noRoom, s)
  else if s.bm.freeCount < need then (.noRoom, s)
  else match s.bm.freeRecords with
    | [] => (.noRoom, s)
    | r :: _ =>
      match checkRecord r s with
      | (false, s1) => (.noAnswer, s1)
      | (true, s1) =>
        match checkLinks (allocationReads s1 need) s1 with
        | (false, s2) => (.noAnswer, s2)
        | (true, s2) => (.admitted r, admitRecord ring d need r s2)

/-! ### Fill -/

/-- What the BM has made of a record after one byte: whether the byte completed a cell, and which (R14). DESIGN CHOICE
(log entry 10): where the completed cell's link entry is uncorrectable, the cell counts as filled, and the fill position
is left at offset 0 of the completed cell. -/
def fillByte (r : Nat) (x : Byte) (s : State) : Bool × State :=
  let f := s.frame r
  let last := cellBytes * f.filled + f.fillOffset + 1 = f.length
  let s1 := s.setCellByte f.fillCell f.fillOffset x
  if f.fillOffset + 1 < cellBytes ∧ ¬ last then (true, s1.setFrame r { f with fillOffset := f.fillOffset + 1 })
  else
    let g := { f with filled := f.filled + 1, fillOffset := (f.fillOffset + 1) % cellBytes }
    if f.filled + 1 = f.cellCount then
      (true, s1.setFrame r { g with state := if f.state = .filling then .ready else f.state })
    else
      let s2 := s1.setFrame r { g with fillOffset := 0 }
      match checkLink f.fillCell s2 with
      | (false, s3) => (false, s3)
      | (true, s3) => (true, s3.setFrame r { g with fillOffset := 0, fillCell := (s3.linkEntry f.fillCell).getD f.fillCell })

/-- The bytes of one host read written in order, up to a link entry with an uncorrectable error (R14, R18); bytes past
the frame's last have no place and are dropped. -/
def fillBytes (r : Nat) : List Byte → State → Bool × State
  | [], s => (true, s)
  | x :: rest, s =>
    if (s.frame r).filled < (s.frame r).cellCount then
      match fillByte r x s with
      | (true, s1) => fillBytes r rest s1
      | (false, s1) => (false, s1)
    else (true, s)

/-- The bytes of a host read presented to the BM with their record (R14): written in FILLING and SENDING, discarded in
every other state; `false` where they are refused for an uncorrectable error (R18). -/
def presentBytes (r : Nat) (data : List Byte) (s : State) : Bool × State :=
  match checkRecord r s with
  | (false, s1) => (false, s1)
  | (true, s1) =>
    match (s1.frame r).state with
    | .filling | .sending => fillBytes r data s1
    | .free | .ready | .closing | .discarding => (true, s1)

/-! ### Queues and retirement -/

/-- A record taken out of its flow's queue, the order of the others kept (R22). -/
def leaveQueue (r : Nat) (s : State) : State :=
  let n := (s.frame r).flow
  s.setFlow n { s.flow n with queue := (s.flow n).queue.erase r }

/-- Whether a record is the head of its flow's queue (R22). -/
def isHead (r : Nat) (s : State) : Bool := decide ((s.flow (s.frame r).flow).queue.head? = some r)

/-- The first cause given to a record is kept (R7). -/
def firstCause (kept given : Option FrameCause) : Option FrameCause :=
  match kept with
  | none => given
  | some c => some c

/-- A flush's end where the flow is FLUSHING and its cells held is 0: the flow DISABLED, and the FLUSH_FLOW completed OK
with its flushed frames (R37). -/
def endFlush (flow : Nat) (s : State) : State :=
  if (s.flow flow).state = .flushing ∧ (s.flow flow).held = 0 then
    endLong (.flushFlow flow) .ok ((s.flow flow).flushed % 2 ^ 16) (s.setFlow flow { s.flow flow with state := .disabled })
  else s

/-- Steps 1 to 4 of a retirement (R115): the completion written, cells and record released, the flow's and the ring's
counts changed, every held descriptor marked retry-ready. -/
def retireRecord (r : Nat) (s : State) : State :=
  let f := s.frame r
  let s1 := writeCompletion f.ring f.tag (frameStatus f.cause) .none f.cutThrough f.sent s
  let s2 := releaseRecord r (releaseCells f s1)
  let c := s2.flow f.flow
  let s3 := s2.setFlow f.flow { c with
    held := c.held - f.cellCount,
    sent := if frameStatus f.cause = .sent then c.sent + 1 else c.sent,
    flushed := if f.cause = some .flushed then c.flushed + 1 else c.flushed }
  markAllReady (lowerInFlight f.ring s3)

/-- A frame's retirement, with the ends it brings: the flush's before the deletion's (R115). -/
def retire (r : Nat) (s : State) : State :=
  endDeletion (s.frame r).ring (endFlush (s.frame r).flow (retireRecord r s))

/-- The BM takes a link end against a SENDING record: link ended yes, the first cause kept, the record out of its queue,
then retired where its fetch has ended and CLOSING where not (R113). -/
def takeLinkEnd (r : Nat) (cause : Option FrameCause) (s : State) : State :=
  let f := s.frame r
  if f.state = .sending then
    let g := { f with linkEnded := true, cause := firstCause f.cause cause,
                      state := if f.fetchEnded then f.state else .closing }
    let s1 := leaveQueue r (s.setFrame r g)
    if f.fetchEnded then retire r s1 else s1
  else s

end Sys2Proof.Machine
end

