-- ==== Sys2Proof/Machine/Links.lean ====
section
/-! DEFINITION. The operations of the Link Units and the Egress Scheduler: cells on the link and the ends of a frame (R104 to R113), eligibility and the two tiers (R88 to R94), calendar activation (R97, R99), the end of a drain (R79), and link failure (R80). -/

namespace Sys2Proof.Machine

open Sys2Proof

/-! ### The serializer -/

/-- A link's serializer set; `none` is IDLE (R103). -/
def setSerializer (l : Nat) (z : Option Serializer) (s : State) : State :=
  s.setLink l { s.link l with serializer := z }

/-- After a refused report the serializer keeps its fields and takes no further step on its frame (R18). -/
def stopSerializer (l : Nat) (s : State) : State :=
  match (s.link l).serializer with
  | none => s
  | some z => setSerializer l (some { z with stopped := true }) s

/-- The bytes of a frame's cell number `k`: 256, or the frame's remaining bytes in its last cell (R1). -/
def cellLength (f : FrameRecord) (k : Nat) : Nat :=
  if k + 1 = f.cellCount then f.length - cellBytes * k else cellBytes

/-- The payload bytes of a cell, as many as are sent. -/
def cellPayload (s : State) (cell n : Nat) : List Byte := (List.range n).map fun o => s.cellByte cell o

/-- A frame ended with ABORT (R110): the marker sent, the credit of the unsent cells restored up to the announced
credit, the serializer IDLE with its timer, and the link end taken with its cause. What the idle serializer brings
follows in `afterLinkEnd`. -/
def abortFrame (l : Nat) (cause : FrameCause) (s : State) : State :=
  match (s.link l).serializer with
  | none => s
  | some z =>
    let s1 := s.send l (.endMarker false)
    let s2 := s1.setAvailable l z.lane
      (min (s1.announced l z.lane) (s1.available l z.lane + (z.cellCount - z.sent)))
    takeLinkEnd z.record (some cause) (setSerializer l none s2)

/-- A frame ended GOOD (R109): the marker sent, the serializer IDLE, the link end taken with no cause. -/
def goodFrame (l : Nat) (s : State) : State :=
  match (s.link l).serializer with
  | none => s
  | some z => takeLinkEnd z.record none (setSerializer l none (s.send l (.endMarker true)))

/-- The sending of the serializer's next cell begins (R106): the cell is read and checked; with an uncorrectable byte
the frame ends ABORT with DATA_ERROR and the EC is told (R112), otherwise the serializer is TRANSMITTING with its timer
stopped. -/
def beginCell (l : Nat) (s : State) : State :=
  match (s.link l).serializer with
  | none => s
  | some z =>
    match checkCell z.nextCell (cellLength (s.frame z.record) z.sent) s with
    | (true, s1) => setSerializer l (some { z with state := .transmitting, timer := none }) s1
    | (false, s1) => abortFrame l .dataError (sendReport (.cellData l z.nextCell) s1)

/-! ### Activation and eligibility -/

/-- The apply of a pending activation (R97). -/
def applyActivation (l : Nat) (s : State) : State :=
  let c := s.sched l
  endLong (.activateCalendar l) .ok 0 (s.setSched l { c with active := c.shadow, pointer := 0, activation := false })

/-- Whether the queue of every flow bound to a link is empty (R98, R99). -/
def queuesEmpty (s : State) (l : Nat) : Bool :=
  (List.range flowTotal).all fun f => decide ((s.flow f).link = l) → (s.flow f).queue.isEmpty

/-- The lane of a flow on a link: the class map entry for its class (R81). -/
def laneOf (s : State) (l flow : Nat) : Nat := tableGet laneUnlisted (s.sched l).classMap (s.flow flow).cls

/-- Whether a head record may be granted: READY, or FILLING at or past a threshold above 0 (R88). -/
def headFilled (threshold : Nat) (f : FrameRecord) : Bool :=
  decide (f.state = .ready) || (decide (f.state = .filling) && decide (0 < threshold) && decide (threshold ≤ f.filled))

/-- Whether a flow is eligible on a link (R88). A head found uncorrectable is passed over: its value is not used (R18;
log entry 7). -/
def eligible (s : State) (l flow : Nat) : Bool :=
  let c := s.flow flow
  decide (c.link = l) && decide ((s.link l).state = .active) && (decide (c.state = .enabled) || decide (c.state = .disabled))
    && (match c.queue with
      | [] => false
      | r :: _ => headFilled c.threshold (s.frame r) && decide ((s.frame r).cellCount ≤ s.available l (laneOf s l flow))
          && !s.es.stopped.contains r)

/-- Whether a flow is eligible on a link (R89). -/
def anyEligible (s : State) (l : Nat) : Bool := (List.range flowTotal).any fun f => eligible s l f

/-- The winner of the expedited tier: the first expedited and eligible flow from the one after the pointer, once round
(R91). -/
def expeditedWinner (s : State) (l : Nat) : Option Nat :=
  ((List.range flowTotal).map fun k => ((s.sched l).expedited + 1 + k) % flowTotal).find? fun f =>
    (s.sched l).mask.getLsbD (s.flow f).cls && eligible s l f

/-- The first of the given slots of the active calendar that names an eligible flow, with the flow (R92). -/
def calendarWinner (s : State) (l : Nat) : List Nat → Option (Nat × Nat)
  | [] => none
  | p :: rest =>
    match tableGet calendarUnlisted (s.sched l).active p with
    | none => calendarWinner s l rest
    | some f => if eligible s l f then some (p, f) else calendarWinner s l rest

/-! ### Grant and arbitration -/

/-- The head records an arbitration reads from the BM: that of every flow whose queue is not empty (R87). -/
def heads (s : State) : List Nat := (List.range flowTotal).filterMap fun f => (s.flow f).queue.head?

/-- The BM's checks of the head records that an arbitration reads (R17, R87, R155). At an uncorrectable one the
arbitration is not carried out, and the ES takes no further step on that frame: its record is not read again (R18; log
entry 7). -/
def readHeads : List Nat → State → Bool × State
  | [], s => (true, s)
  | r :: rest, s =>
    if s.es.stopped.contains r then readHeads rest s
    else match checkRecord r s with
      | (true, s1) => readHeads rest s1
      | (false, s1) => (false, s1.onEs fun b => { b with stopped := r :: b.stopped })

/-- A grant of a flow's head record, taken by the LU and the BM (R104, R105). -/
def grantHead (l flow r : Nat) (s : State) : State :=
  let f := s.frame r
  let lane := laneOf s l flow
  let s1 := s.setAvailable l lane (s.available l lane - f.cellCount)
  let s2 := s1.setFrame r { f with state := .sending, cutThrough := decide (f.state = .filling) }
  let s3 := setSerializer l (some
    { state := .transmitting, record := r, lane := lane, cellCount := f.cellCount, sent := 0, filled := f.filled,
      nextCell := f.firstCell, timer := none, stopped := false, lost := false }) s2
  beginCell l (s3.send l (.header lane (s.flow flow).cls flow f.length f.cellCount))

/-- The award of a link to a flow's head, whose record passed its check in this arbitration: the pointer update of the
tier and the grant. -/
def award (l flow : Nat) (pointers : Scheduler → Scheduler) (s : State) : Bool × State :=
  match (s.flow flow).queue with
  | [] => (false, s)
  | r :: _ => (true, grantHead l flow r (s.setSched l (pointers (s.sched l))))

/-- The calendar tier's grant at a slot: the pointer goes to the slot after it (R92). -/
def awardSlot (l slot flow : Nat) (s : State) : Bool × State :=
  award l flow (fun c => { c with pointer := (slot + 1) % calendarSlots }) s

/-- The calendar tier from the wrap on (R93): a pending activation is applied and a fresh full turn made; otherwise the
turn goes on with the slots before the pointer. -/
def calendarWrap (l : Nat) (s : State) : Bool × State :=
  if (s.sched l).activation then
    let s1 := applyActivation l s
    match calendarWinner s1 l (List.range calendarSlots) with
    | some (p, f) => awardSlot l p f s1
    | none => (false, s1)
  else
    let p := (s.sched l).pointer
    match calendarWinner s l (List.range (if p = 0 then calendarSlots else p)) with
    | some (q, f) => awardSlot l q f s
    | none => (false, s)

/-- The calendar tier (R92, R93): the slots from the pointer to 63 where the pointer is above 0, then the wrap. -/
def calendarTier (l : Nat) (s : State) : Bool × State :=
  let p := (s.sched l).pointer
  match calendarWinner s l (if p = 0 then [] else (List.range calendarSlots).drop p) with
  | some (q, f) => awardSlot l q f s
  | none => calendarWrap l s

/-- An arbitration: the expedited tier first, then the calendar tier (R90); whether it made a grant. -/
def arbitrate (l : Nat) (s : State) : Bool × State :=
  match expeditedWinner s l with
  | some f => award l f (fun c => { c with expedited := f }) s
  | none => calendarTier l s

/-- A link considered by the ES once after an event's changes (R87, R89, R99): on an ACTIVE link with an idle serializer
a pending activation is applied where every queue is empty; otherwise the head records are read, and an arbitration is
held where a flow is eligible. A frame granted and ended at once by a bad first cell leaves the serializer idle, which is
a new report (log entry 20); the number bounds how often. -/
def considerTimes : Nat → Nat → State → State
  | 0, _, s => s
  | n + 1, l, s =>
    if s.hp.device = .running ∧ (s.link l).state = .active ∧ (s.link l).serializer = none then
      if queuesEmpty s l then (if (s.sched l).activation then applyActivation l s else s)
      else match readHeads (heads s) s with
        | (false, s1) => s1
        | (true, s1) =>
          if anyEligible s1 l then
            match arbitrate l s1 with
            | (true, s2) => if (s2.link l).serializer = none then considerTimes n l s2 else s2
            | (false, s2) => s2
          else s1
    else s

/-- A link considered, with room for every record to fail. -/
def consider (l : Nat) (s : State) : State := considerTimes (recordTotal + 1) l s

/-! ### Ends of link operations -/

/-- A link's credit is 0 on every lane and its state the one given. -/
def clearCredit (l : Nat) (state : LinkState) (s : State) : State :=
  s.setLink l { s.link l with announced := [], available := [], state := state }

/-- The long command a link owes is reported ended with a status, and the link owes none; nothing is reported where it
owes none (R66). -/
def endLinkCommand (l : Nat) (status : AdminStatus) (s : State) : State :=
  let owed := (s.link l).outstanding
  let s1 := s.setLink l { s.link l with outstanding := none }
  match owed with
  | none => s1
  | some .enable => endLong (.enableLink l) status 0 s1
  | some .disable => endLong (.disableLink l) status 0 s1

/-- The end of a drain: DOWN sent, the credit 0, the link DISABLED, the DISABLE_LINK completed OK (R79). -/
def endDrain (l : Nat) (s : State) : State :=
  endLinkCommand l .ok (clearCredit l .disabled (s.send l (.down l)))

/-- What the idle serializer brings after a frame's end: the end of the drain in DRAINING, and the ES's consideration in
ACTIVE (R109, R110). DESIGN CHOICE (log entry 34): it follows the link end, so the admin completions of the frame's
retirement come before that of the DISABLE_LINK, or of an activation applied. -/
def afterLinkEnd (l : Nat) (s : State) : State :=
  match (s.link l).state with
  | .draining => endDrain l s
  | .active => consider l s
  | .disabled | .awaitPartner | .failed => s

/-- A pending activation applied at a departure from ACTIVE (R99). -/
def applyAtDeparture (l : Nat) (s : State) : State := if (s.sched l).activation then applyActivation l s else s

/-- The frame on a link cut short with LINK_LOST: no marker, the serializer IDLE, the link end taken (R74, R80). A
stopped serializer keeps its fields and reports no link end (R18; log entry 9); that its frame was cut short is noted, so
that no end marker follows it (R69). -/
def loseFrame (l : Nat) (s : State) : State :=
  match (s.link l).serializer with
  | none => s
  | some z =>
    if z.stopped then setSerializer l (some { z with lost := true }) s
    else takeLinkEnd z.record (some .linkLost) (setSerializer l none s)

/-- The BM's check of the record a link is sending, before an event that would end its frame; where it is uncorrectable
the event is not carried out and the serializer stops (R18; log entry 8). A stopped serializer makes no link end, so its
record is not accessed (log entry 9). -/
def checkSending (l : Nat) (s : State) : Bool × State :=
  match (s.link l).serializer with
  | none => (true, s)
  | some z =>
    if z.stopped then (true, s)
    else match checkRecord z.record s with
      | (true, s1) => (true, s1)
      | (false, s1) => (false, stopSerializer l s1)

/-- A link fails in ACTIVE or DRAINING (R80): the frame lost, the credit 0, the cause written, FAILED, a DOWN unless the
partner's DOWN is the cause, the LINK_FAILED notice; then, in DRAINING, DISABLED with the DISABLE_LINK completed OK, and
in ACTIVE a pending activation applied (R99). -/
def failLink (l : Nat) (cause : LinkCause) (s : State) : State :=
  let draining := (s.link l).state = .draining
  let s1 := clearCredit l .failed (loseFrame l s)
  let s2 := s1.setLink l { s1.link l with cause := some cause }
  let s3 := if cause = .partnerDown then s2 else s2.send l (.down l)
  let s4 := raiseNotice (.linkFailed l cause) s3
  if draining then endLinkCommand l .ok (s4.setLink l { s4.link l with state := .disabled })
  else applyAtDeparture l s4

/-- A link failure as an event: carried out unless the record of its frame is uncorrectable (R18). -/
def failLinkEvent (l : Nat) (cause : LinkCause) (s : State) : State :=
  match checkSending l s with
  | (true, s1) => failLink l cause s1
  | (false, s1) => s1

/-- A malformed message, and one that cannot be taken: a failure with cause PROTOCOL in ACTIVE and DRAINING, ignored
elsewhere (R70); partner messages are discarded unless the device is RUNNING (R85). -/
def protocolError (l : Nat) (s : State) : State :=
  if s.hp.device = .running ∧ ((s.link l).state = .active ∨ (s.link l).state = .draining) then
    failLinkEvent l .protocol s
  else s

/-! ### Cells sent and fill reports -/

/-- The BM's part of a cell-sent report: cells sent rises by one on a SENDING record (R106). -/
def countSent (r : Nat) (s : State) : State :=
  let f := s.frame r
  if f.state = .sending then s.setFrame r { f with sent := f.sent + 1 } else s

/-- What the serializer does after a cell that is not the frame's last (R106): the next cell begins where it is filled,
otherwise STARVED with the underrun timer at 20 µs (R108). -/
def nextCell (l : Nat) (z : Serializer) (s : State) : State :=
  let w := { z with sent := z.sent + 1, nextCell := (s.linkEntry z.nextCell).getD z.nextCell }
  if w.sent < w.filled then
    let s1 := beginCell l (setSerializer l (some w) s)
    if (s1.link l).serializer = none then afterLinkEnd l s1 else s1
  else setSerializer l (some { w with state := .starved, timer := some underrunUs }) s

/-- The end of a cell's sending (R106): the cell's bytes have been sent, whatever the BM makes of the cell-sent report;
the record checked, and the link entry too unless the cell is the frame's last; where either is uncorrectable the report
is refused and the serializer stops (R18); else the count, and the next cell, STARVED, or GOOD. -/
def endCell (l : Nat) (z : Serializer) (s : State) : State :=
  let last := z.sent + 1 = z.cellCount
  let s0 := s.send l (.cell (cellPayload s z.nextCell (cellLength (s.frame z.record) z.sent)))
  match checkRecord z.record s0 with
  | (false, s1) => stopSerializer l s1
  | (true, s1) =>
    match (if last then (true, s1) else checkLink z.nextCell s1) with
    | (false, s2) => stopSerializer l s2
    | (true, s2) =>
      let s3 := countSent z.record s2
      if last then afterLinkEnd l (goodFrame l (setSerializer l (some { z with sent := z.sent + 1 }) s3))
      else nextCell l z s3

/-- The LU takes a fill report of a record (R107): its cells filled takes the value, and a STARVED serializer begins the
next cell. A stopped serializer takes no step (R18). -/
def takeFillReport (l r filled : Nat) (s : State) : State :=
  match (s.link l).serializer with
  | none => s
  | some z =>
    if z.record = r ∧ z.stopped = false then
      let s1 := setSerializer l (some { z with filled := filled }) s
      if z.state = .starved then beginCell l s1 else s1
    else s

/-- A frame ended ABORT as an event, with what the idle serializer brings (R110); not carried out where its record is
uncorrectable (R18). -/
def abortEvent (l : Nat) (cause : FrameCause) (s : State) : State :=
  match checkSending l s with
  | (true, s1) => afterLinkEnd l (abortFrame l cause s1)
  | (false, s1) => s1

end Sys2Proof.Machine
end

