-- ==== Sys2Proof/Machine/Device.lean ====
section
/-! DEFINITION. The device states: entry into FAILED, SELF_RESETTING and RESETTING, the completion of a self-reset and of a function reset (R158 to R164, R174, R180), the end of a host read (R178), and the window of registers (R172 to R176, R185). -/

namespace Sys2Proof.Machine

open Sys2Proof

/-! ### Stopping timers and reports -/

/-- Every holdoff timer stopped (R132). -/
def stopHoldoffs (s : State) : State :=
  (List.range cqTotal).foldl (fun t n => t.setCq n { t.cq n with timer := none }) s

/-- The reports and orders between the BM, the DFU and the LUs, discarded at the entry into a state in which their
takers discard them (R19, R117; log entry 11), and the marks of refused steps with them. -/
def dropReports (s : State) : State :=
  ((s.onBm fun b => { b with fetchEnds := [] }).onLu fun b => { b with aborts := [] }).onEs fun b => { b with stopped := [] }

/-- A link's timers stopped and its serializer IDLE. -/
def quietLink (l : Nat) (s : State) : State :=
  s.setLink l { s.link l with serializer := none, offerTimer := none, linkUpTimer := none }

/-- Whether a link's serializer has a frame that an end marker may still follow: in ACTIVE or DRAINING, the frame not cut
short by a failure (R69). -/
def mayMark (k : LinkContext) : Bool :=
  (decide (k.state = .active) || decide (k.state = .draining)) && k.serializer.any fun z => !z.lost

/-- A busy serializer's ABORT marker, without restoration and without a link end taken (R69, R85, R117). -/
def markAbort (l : Nat) (s : State) : State := if mayMark (s.link l) then s.send l (.endMarker false) else s

/-- DOWN on a link that is not DISABLED (R85). -/
def sendDown (l : Nat) (s : State) : State := if (s.link l).state = .disabled then s else s.send l (.down l)

/-- An operation on every link in rising order. DESIGN CHOICE (log entry 36): the messages of different links in one event
stand in that order; R69 orders those of one link, and R160 the notices. -/
def forLinks (f : Nat → State → State) (s : State) : State := (List.range linkTotal).foldl (fun t l => f l t) s

/-! ### Entry into FAILED -/

/-- A link on entry to FAILED under HALT (R85). -/
def haltLink (l : Nat) (s : State) : State := quietLink l (markAbort l s)

/-- A link on entry to FAILED under HALT_LINKS_DOWN: as under HALT, then DOWN, credit 0 and cause CONTAINMENT unless
DISABLED (R85, R160). -/
def takeDownLink (l : Nat) (s : State) : State :=
  let s1 := sendDown l (haltLink l s)
  if (s1.link l).state = .disabled then s1
  else s1.setLink l { s1.link l with announced := [], available := [], state := .failed, cause := some .containment }

/-- The LINK_FAILED notice of a link taken down, by the link states before the entry (R160). -/
def noticeTakenDown (before : State) (l : Nat) (s : State) : State :=
  if (before.link l).state = .disabled then s else raiseNotice (.linkFailed l .containment) s

/-- Entry into FAILED under HALT, or under HALT_LINKS_DOWN (R159, R160). -/
def enterFailed (linksDown : Bool) (s : State) : State :=
  let s1 := dropReports (stopHoldoffs (s.onHp fun b => { b with device := .failed }))
  let s2 := forLinks (if linksDown then takeDownLink else haltLink) s1
  let s3 := raiseNotice (.fatalError s2.ec.fatalCause) s2
  if linksDown then forLinks (noticeTakenDown s) s3 else s3

/-! ### Self-reset -/

/-- The datapath at its reset values; what the links and the host link have already sent stays sent (R162 step 1). -/
def resetDatapath (s : State) : State :=
  { s with
    bm := BmBlock.reset, dfu := DfuBlock.reset, es := EsBlock.reset, cu := CuBlock.reset,
    lu := { LuBlock.reset with out := s.lu.out },
    hp := { s.hp with reads := [], latch := false },
    ec := { s.ec with cellDataCount := 0, linkTableCount := 0, frameTableCount := 0 } }

/-- The return to RUNNING: every outstanding command ABORTED, the SELF_RESET_DONE notice, the fatal cause absent, and the
AP's next read (R162 step 3). -/
def returnToRunning (s : State) : State :=
  let s1 := s.onHp fun b => { b with device := .running }
  let s2 := abortOutstanding s1.ap.outstanding s1
  let s3 := raiseNotice (.selfResetDone s2.ec.fatalCause) s2
  startCommandRead (s3.onEc fun b => { b with fatalCause := none })

/-- The escalated end: FAILED, the fatal cause kept, FATAL_ERROR raised (R162 step 4). -/
def escalate (s : State) : State :=
  let s1 := s.onHp fun b => { b with device := .failed }
  raiseNotice (.fatalError s1.ec.fatalCause) s1

/-- The completion of a self-reset (R162). -/
def completeSelfReset (s : State) : State :=
  let s1 := resetDatapath s
  if s1.ec.multiple then escalate s1 else returnToRunning s1

/-! ### Function reset -/

/-- The completion of a function reset: every block at its power-on values, the device STOPPED (R174). What has been
handed over stays handed over (R179), and the commands that wait still wait. -/
def completeFunctionReset (s : State) : State :=
  { State.reset with
    hp := { HpBlock.reset with out := s.hp.out }, lu := { LuBlock.reset with out := s.lu.out }, pending := s.pending }

/-- The completion that a reset in progress is waiting for, made where no read is outstanding (R161, R174, R180). -/
def completeReset (s : State) : State :=
  if readsEmpty s then
    match s.hp.device with
    | .selfResetting => completeSelfReset s
    | .resetting => completeFunctionReset s
    | .stopped | .running | .failed => s
  else s

/-- A link on entry to SELF_RESETTING: ABORT where busy, then DOWN (R85, R161). -/
def selfResetLink (l : Nat) (s : State) : State := sendDown l (haltLink l s)

/-- Entry into SELF_RESETTING, and the completion in the same event where no read is outstanding (R161). -/
def enterSelfResetting (s : State) : State :=
  let s1 := dropReports (stopHoldoffs (s.onHp fun b => { b with device := .selfResetting }))
  completeReset (forLinks selfResetLink s1)

/-- A link on entry to RESETTING: its frame abandoned without a marker, DOWN unless the device was FAILED (R85, R174). -/
def resetLink (silent : Bool) (l : Nat) (s : State) : State :=
  if silent then quietLink l s else sendDown l (quietLink l s)

/-- Entry into RESETTING, up to the test whether a read is outstanding (R174). -/
def enterResetting (s : State) : State :=
  let silent := decide (s.hp.device = .failed)
  let s1 := dropReports (stopHoldoffs (s.onHp fun b => { b with device := .resetting, run := false }))
  forLinks (resetLink silent) s1

/-- A function reset started by a write, in any state but RESETTING (R172, R174). -/
def startFunctionReset (s : State) : State :=
  if s.hp.device = .resetting then s else completeReset (enterResetting s)

/-- Every outstanding read's response cut off by a host-link reset (R178). -/
def cutOffReads (s : State) : State :=
  (List.range readTotal).foldl
    (fun t i => match t.read i with
      | none => t
      | some r => t.setRead i (some { r with cutOff := true })) s

/-- A function reset started by a host-link reset (R174, R178). -/
def startHostLinkReset (s : State) : State :=
  if s.hp.device = .resetting then s else completeReset (enterResetting (cutOffReads s))

/-! ### The end of a host read -/

/-- Whether a response can still reach an entry: it is outstanding and not cut off (R178). -/
def awaitsResponse (s : State) (i : Nat) : Bool :=
  match s.read i with
  | none => false
  | some r => !r.cutOff

/-- An entry freed at the end of its read (R178). -/
def freeRead (i : Nat) (s : State) : State := s.setRead i none

/-- The outcome of a slot's read discarded because the device is not RUNNING: the slot goes to IDLE, and the freeing
counts toward a reset that waits (R65, R178). -/
def discardSlotRead (i : Nat) (s : State) : State := completeReset (s.setSlot i .idle)

/-- The outcome of the AP's read discarded because the device is not RUNNING: the AP goes to IDLE (R151, R152, R153). -/
def discardAdminRead (s : State) : State :=
  completeReset (s.onAp fun b => { b with state := if b.state = .reading then .idle else b.state })

/-! ### CONTROL and the system ring registers -/

/-- The containment mode of a CONTROL write taken in STOPPED, RUNNING and FAILED; the value 3 leaves the mode (R172,
R185). -/
def storeMode (w : Word32) (s : State) : State :=
  match s.hp.device with
  | .stopped | .running | .failed =>
    match controlMode w with
    | none => s
    | some m => s.onHp fun b => { b with mode := m }
  | .selfResetting | .resetting => s

/-- Whether the three system ring sizes are valid (R173). -/
def sizesValid (s : State) : Bool :=
  systemRingSizes.contains s.hp.asrSize.toNat && systemRingSizes.contains s.hp.acrSize.toNat
    && systemRingSizes.contains s.hp.nrSize.toNat

/-- RUN = 1 taken in STOPPED: RUNNING with the backlog drained and the AP's first read, or CONFIG_ERROR (R173). -/
def startDevice (s : State) : State :=
  if s.hp.device = .stopped then
    if sizesValid s then
      startCommandRead (drainBacklog (s.onHp fun b => { b with device := .running, run := true, configError := false }))
    else s.onHp fun b => { b with configError := true }
  else s

/-- A CONTROL write taken whole (R172). -/
def writeControl (w : Word32) (s : State) : State :=
  if s.hp.device = .resetting then s
  else if controlFunctionReset w then startFunctionReset s
  else if controlRun w then startDevice (storeMode w s)
  else storeMode w s

/-- The low 32 bits of a base register replaced, with the low-order bits dropped that R175 names. -/
def setLow (dropped : Nat) (base : Address) (v : Word32) : Address :=
  (((base >>> 32) <<< 32) ||| v.setWidth 64) &&& ~~~(BitVec.ofNat 64 (2 ^ dropped - 1))

/-- The high 32 bits of a base register replaced (section 11.9). -/
def setHigh (base : Address) (v : Word32) : Address := ((base <<< 32) >>> 32) ||| (v.setWidth 64 <<< 32)

/-- A system ring register written, in STOPPED only (R175): 64, 32 and 16 byte alignment for ASR, ACR and NR bases. -/
def writeSystemRegister (r : SystemRingRegister) (v : Word32) (s : State) : State :=
  if s.hp.device = .stopped then
    s.onHp fun b => match r with
      | .asrBaseLow => { b with asrBase := setLow 6 b.asrBase v }
      | .asrBaseHigh => { b with asrBase := setHigh b.asrBase v }
      | .asrSize => { b with asrSize := v }
      | .acrBaseLow => { b with acrBase := setLow 5 b.acrBase v }
      | .acrBaseHigh => { b with acrBase := setHigh b.acrBase v }
      | .acrSize => { b with acrSize := v }
      | .nrBaseLow => { b with nrBase := setLow 4 b.nrBase v }
      | .nrBaseHigh => { b with nrBase := setHigh b.nrBase v }
      | .nrSize => { b with nrSize := v }
  else s

/-! ### Index ports -/

/-- A value refused at an index port: the INDEX_ERROR notice names the port and the value (R166). -/
def refuseIndex (port : Nat) (v : Word32) (s : State) : State := raiseNotice (.indexError port v) s

/-- A producer index of a submission ring (R41). -/
def takeSqProducer (n : Nat) (v : Word32) (s : State) : State :=
  if (s.sq n).state = .absent ∨ (s.sq n).size ≤ v.toNat then refuseIndex n v s
  else s.setSq n { s.sq n with producer := v.toNat }

/-- A write to port 0 to 31: taken in STOPPED and RUNNING, dropped elsewhere (R176). -/
def writeSqPort (n : Nat) (v : Word32) (s : State) : State :=
  match s.hp.device with
  | .stopped | .running => takeSqProducer n v s
  | .failed | .selfResetting | .resetting => s

/-- A write to port 32: taken in RUNNING and SELF_RESETTING (R135, R176); it may start a command read. -/
def writeAsrPort (v : Word32) (s : State) : State :=
  match s.hp.device with
  | .running | .selfResetting =>
    if s.hp.asrSize.toNat ≤ v.toNat then refuseIndex 32 v s
    else startCommandRead (s.onAp fun b => { b with asrProducer := v.toNat })
  | .stopped | .failed | .resetting => s

/-- Whether `v` lies in the cyclic range from the consumer index to the tail, both included (R125, R146, R168). -/
def consumerInRange (size tail consumer v : Nat) : Bool :=
  decide (ringDistance size v consumer ≤ ringDistance size tail consumer)

/-- A consumer index of a completion ring (R125). -/
def takeCqConsumer (n : Nat) (v : Word32) (s : State) : State :=
  let c := s.cq n
  if c.state = .absent ∨ c.size ≤ v.toNat then refuseIndex (33 + n) v s
  else if consumerInRange c.size c.tail c.consumer v.toNat then s.setCq n { c with consumer := v.toNat }
  else refuseIndex (33 + n) v s

/-- A write to port 33 to 48: taken in STOPPED and RUNNING, dropped elsewhere (R176). -/
def writeCqPort (n : Nat) (v : Word32) (s : State) : State :=
  match s.hp.device with
  | .stopped | .running => takeCqConsumer n v s
  | .failed | .selfResetting | .resetting => s

/-- A write to port 49: taken in RUNNING and SELF_RESETTING (R146, R176); the latch is cleared first, whether the value is
accepted or not (R149). -/
def writeAcrPort (v : Word32) (s : State) : State :=
  match s.hp.device with
  | .running | .selfResetting =>
    let s1 := clearLatch s
    if s1.hp.acrSize.toNat ≤ v.toNat then refuseIndex 49 v s1
    else if consumerInRange s1.hp.acrSize.toNat s1.ap.acrTail s1.ap.acrConsumer v.toNat then
      startCommandRead (s1.onAp fun b => { b with acrConsumer := v.toNat })
    else refuseIndex 49 v s1
  | .stopped | .failed | .resetting => s

/-- A write to port 50: taken in RUNNING, FAILED and SELF_RESETTING (R168, R176); the latch is cleared first, and an
accepted write drains the backlog. -/
def writeNrPort (v : Word32) (s : State) : State :=
  match s.hp.device with
  | .running | .failed | .selfResetting =>
    let s1 := clearLatch s
    if s1.hp.nrSize.toNat ≤ v.toNat then refuseIndex 50 v s1
    else if consumerInRange s1.hp.nrSize.toNat s1.ec.nrTail s1.ec.nrConsumer v.toNat then
      drainBacklog (s1.onEc fun b => { b with nrConsumer := v.toNat })
    else refuseIndex 50 v s1
  | .stopped | .resetting => s

/-! ### The window (section 11.9, R185) -/

/-- The system ring register at an offset of the window. -/
def systemRegisterAt : Nat → Option SystemRingRegister
  | 0x010 => some .asrBaseLow
  | 0x014 => some .asrBaseHigh
  | 0x018 => some .asrSize
  | 0x020 => some .acrBaseLow
  | 0x024 => some .acrBaseHigh
  | 0x028 => some .acrSize
  | 0x030 => some .nrBaseLow
  | 0x034 => some .nrBaseHigh
  | 0x038 => some .nrSize
  | _ => none

/-- The index port at an offset of the window: port n at 0x100 + 4n for n from 0 to 50. -/
def portAt (offset : Nat) : Option Nat :=
  if 0x100 ≤ offset ∧ offset ≤ 0x1C8 ∧ offset % 4 = 0 then some ((offset - 0x100) / 4) else none

/-- A write to index port `n` (section 10.3). -/
def writePort (n : Nat) (v : Word32) (s : State) : State :=
  if n < 32 then writeSqPort n v s
  else if n = 32 then writeAsrPort v s
  else if n < 49 then writeCqPort (n - 33) v s
  else if n = 49 then writeAcrPort v s
  else writeNrPort v s

/-- A write to the window: of four bytes, to CONTROL, a system ring register or an index port; every other write, one to
STATUS among them, is ignored and raises no notice (R175, R185). DESIGN CHOICE (log entry 23): a write of more than four
bytes is ignored as one of fewer is. -/
def writeWindow (offset width : Nat) (v : Word32) (s : State) : State :=
  if width ≠ 4 then s
  else if offset = 0 then writeControl v s
  else match systemRegisterAt offset with
    | some r => writeSystemRegister r v s
    | none =>
      match portAt offset with
      | some n => writePort n v s
      | none => s

/-- The value an index port reads as: what its owner holds, 0 for an ABSENT ring (R176). -/
def readPort (s : State) (n : Nat) : Nat :=
  if n < 32 then (if (s.sq n).state = .absent then 0 else (s.sq n).producer)
  else if n = 32 then s.ap.asrProducer
  else if n < 49 then (if (s.cq (n - 33)).state = .absent then 0 else (s.cq (n - 33)).consumer)
  else if n = 49 then s.ap.acrConsumer
  else s.ec.nrConsumer

/-- A register read, which has no side effect (section 10.2); 0 at an offset the table does not list (R185). -/
def State.readRegister (s : State) (offset : Nat) : Word32 :=
  if offset = 0 then controlWord s
  else if offset = 4 then statusWord s
  else match systemRegisterAt offset with
    | some .asrBaseLow => s.hp.asrBase.setWidth 32
    | some .asrBaseHigh => (s.hp.asrBase >>> 32).setWidth 32
    | some .asrSize => s.hp.asrSize
    | some .acrBaseLow => s.hp.acrBase.setWidth 32
    | some .acrBaseHigh => (s.hp.acrBase >>> 32).setWidth 32
    | some .acrSize => s.hp.acrSize
    | some .nrBaseLow => s.hp.nrBase.setWidth 32
    | some .nrBaseHigh => (s.hp.nrBase >>> 32).setWidth 32
    | some .nrSize => s.hp.nrSize
    | none =>
      match portAt offset with
      | some n => BitVec.ofNat 32 (readPort s n)
      | none => 0

end Sys2Proof.Machine
end

