-- ==== Sys2Proof/Machine/Fetch.lean ====
section
/-! DEFINITION. The commands of the fetch path (chapter 3): the arbiter's grants and retries, descriptor and payload reads and their ends, the host read table's own events, and the fetch end the BM takes. -/

namespace Sys2Proof.Machine

open Sys2Proof Host

/-! ### The arbiter -/

/-- The lowest-numbered IDLE fetch slot (R45). -/
def idleSlot (s : State) : Option Nat := (List.range slotTotal).find? fun i => decide (s.slot i = .idle)

/-- The first held entry marked retry-ready (R46); one whose admission request got no answer is passed over (R18; log
entry 33). -/
def retryClaim (s : State) : Option HeldEntry := s.dfu.held.find? fun e => e.ready && !e.stopped

/-- The pending count of a submission ring (R42). -/
def SqContext.pendingCount (c : SqContext) : Nat := ringDistance c.size c.producer c.head

/-- The conditions under which a ring may be granted a new descriptor read (R47). -/
def mayRead (s : State) (n : Nat) : Bool :=
  let c := s.sq n
  decide (c.state = .active) && decide (0 < c.pendingCount) && !c.reading && c.held.isNone
    && decide (c.inFlight < c.limit) && decide (1 ≤ (s.cq c.cq).free)

/-- The ring the round-robin search grants: from the one after the last ring granted, once round (R47). -/
def readClaim (s : State) : Option Nat :=
  ((List.range sqTotal).map fun k => (s.dfu.lastRing + 1 + k) % sqTotal).find? (mayRead s)

/-- The changes of a grant for a new descriptor read (R48). -/
def grantRead (i n : Nat) (s : State) : State :=
  let c := s.sq n
  let s1 := cqReserve c.cq s
  let s2 := s1.setSq n { c with inFlight := c.inFlight + 1, reading := true }
  let s3 := (s2.setSlot i (.descRead n c.head)).onDfu fun b => { b with lastRing := n }
  issueRead i (c.base.toNat + recordReadBytes * c.head) recordReadBytes s3

/-! ### Payload reads -/

/-- The payload read at a position: up to 512 bytes of one segment (R59). -/
def issuePayload (i : Nat) (g : Segment) (offset : Nat) (s : State) : State :=
  issueRead i (g.address + offset) (min largestRead (g.length - offset)) s

/-- The payload fetch of an admitted frame begins: the slot in PAYLOAD and its first read (R54, R59). -/
def beginPayload (i ring r : Nat) (segments : List Segment) (s : State) : State :=
  let s1 := s.setSlot i (.payload ring r segments 0 0)
  match segments with
  | [] => s1
  | g :: _ => issuePayload i g 0 s1

/-- A fetch end on its way to the BM, and the slot IDLE (R60). -/
def endFetch (i r : Nat) (ok : Bool) (s : State) : State :=
  (s.setSlot i .idle).onBm fun b => { b with fetchEnds := b.fetchEnds ++ [(r, ok)] }

/-- After a read's bytes were handed to the BM: the next read of the segment, the first of the next one, or the fetch's
OK end (R59, R60). -/
def advancePayload (i ring r : Nat) (segments : List Segment) (current offset bytes : Nat) (s : State) : State :=
  match segments[current]? with
  | none => endFetch i r true s
  | some g =>
    if offset + bytes < g.length then
      issuePayload i g (offset + bytes) (s.setSlot i (.payload ring r segments current (offset + bytes)))
    else match segments[current + 1]? with
      | none => endFetch i r true s
      | some h => issuePayload i h 0 (s.setSlot i (.payload ring r segments (current + 1) 0))

/-! ### Descriptors -/

/-- Checks 1 to 5 of R52 in their order; none where all pass. -/
def invalidSubcode (s : State) (d : Descriptor) : Option Subcode :=
  if d.kind ≠ 1 then some .badKind
  else if 127 < d.flow ∨ (s.flow d.flow).state = .unconfigured then some .badFlow
  else if d.length < 1 ∨ 16384 < d.length then some .badLength
  else if !segmentsOk d then some .badSegments
  else if (s.flow d.flow).cap < cellNeed d.length then some .exceedsCap
  else none

/-- The head advanced and the read ended, as a descriptor of an ACTIVE ring is taken (R49). -/
def takeHead (ring : Nat) (s : State) : State :=
  s.setSq ring { s.sq ring with head := advance (s.sq ring).size (s.sq ring).head, reading := false }

/-- A frame admitted: the slot to PAYLOAD with its first read, and, where the record joined an empty queue, the report to
the ES (R13, R54). -/
def startAdmitted (i ring r : Nat) (d : Descriptor) (s : State) : State :=
  let s1 := beginPayload i ring r d.used s
  if isHead r s1 then consider (s1.flow d.flow).link s1 else s1

/-- A descriptor becomes held: the copy in the ring's context, the ring at the tail of the held list with the mark no
(R55). -/
def holdDescriptor (ring : Nat) (h : HeldCopy) (s : State) : State :=
  (s.setSq ring { s.sq ring with held := some h }).onDfu fun b =>
    { b with held := b.held ++ [{ ring := ring, ready := false, stopped := false }] }

/-- A descriptor read from an ACTIVE ring, validated and then completed, held or admitted (R49, R52 to R55). Where the
BM gives no answer the event is not carried out (R18; log entry 8). -/
def takeDescriptor (i ring ringSlot : Nat) (d : Descriptor) (s : State) : State :=
  match invalidSubcode s d with
  | some code => (completeUnadmitted ring d.tag .invalidDescriptor code (takeHead ring s)).setSlot i .idle
  | none =>
    match requestAdmission ring d (cellNeed d.length) s with
    | (.noAnswer, s1) => s1
    | (.notReady, s1) => (completeUnadmitted ring d.tag .flowNotReady .none (takeHead ring s1)).setSlot i .idle
    | (.noRoom, s1) =>
      match (s1.flow d.flow).policy with
      | .discard => (completeUnadmitted ring d.tag .droppedNoBuffer .none (takeHead ring s1)).setSlot i .idle
      | .hold =>
        (holdDescriptor ring { descriptor := d, slot := ringSlot, need := cellNeed d.length } (takeHead ring s1)).setSlot i
          .idle
    | (.admitted r, s1) => startAdmitted i ring r d (takeHead ring s1)

/-- The reservation of a descriptor read released without a record, the in-flight count lowered, the read ended, the slot
IDLE (R50, R51). -/
def releaseRead (i ring : Nat) (s : State) : State :=
  let s1 := lowerInFlight ring (cqRelease (s.sq ring).cq s)
  (s1.setSq ring { s1.sq ring with reading := false }).setSlot i .idle

/-- A descriptor read that returned data while RUNNING: taken by an ACTIVE ring (R49), dropped by a DELETING one (R50). -/
def returnDescriptor (i ring ringSlot : Nat) (data : BitVec 512) (s : State) : State :=
  match (s.sq ring).state with
  | .active => takeDescriptor i ring ringSlot (decodeDescriptor data) s
  | .deleting | .error | .absent => endDeletion ring (releaseRead i ring s)

/-- A descriptor read that ended with an error or a timeout while RUNNING (R51). -/
def failDescriptor (i ring ringSlot : Nat) (s : State) : State :=
  let s1 := releaseRead i ring s
  match (s1.sq ring).state with
  | .active => raiseNotice (.ringError ring ringSlot) (s1.setSq ring { s1.sq ring with state := .error })
  | .deleting | .error | .absent => endDeletion ring s1

/-- A fetch slot's read ended with an error or a timeout (R51, R60, R65). -/
def failSlotRead (i : Nat) (s : State) : State :=
  let s1 := freeRead i s
  if s1.hp.device = .running then
    match s1.slot i with
    | .descRead ring ringSlot => failDescriptor i ring ringSlot s1
    | .payload _ r _ _ _ => endFetch i r false s1
    | .idle => s1
  else discardSlotRead i s1

/-- The AP's command read ended with an error or a timeout (R138, R151). -/
def failAdminRead (s : State) : State :=
  let s1 := freeRead adminReadEntry s
  if s1.hp.device = .running then
    if s1.ap.state = .reading then
      raiseNotice (.ringError 32 s1.ap.asrHead) (s1.onAp fun b => { b with state := .error })
    else s1
  else discardAdminRead s1

/-! ### Reports of a fill -/

/-- The reports of a rise of cells filled on a queue's head: to the LU where the frame is SENDING (R107), and to the ES,
which considers the link once (R14, R89). -/
def reportFill (r : Nat) (s : State) : State :=
  let l := (s.flow (s.frame r).flow).link
  let s1 := if (s.frame r).state = .sending then takeFillReport l r (s.frame r).filled s else s
  if (s1.link l).serializer = none then afterLinkEnd l s1 else s1

/-- A payload read that returned its data while RUNNING (R14, R59, R107). DESIGN CHOICE (log entry 29): a read that
completes several cells is reported once, with the final count, after all its bytes are written. -/
def returnPayload (i ring r : Nat) (segments : List Segment) (current offset : Nat) (data : List Byte) (s : State) :
    State :=
  let before := (s.frame r).filled
  let s2 := match presentBytes r data s with
    | (true, s1) => advancePayload i ring r segments current offset data.length s1
    | (false, s1) => s1
  if before < (s2.frame r).filled ∧ isHead r s2 then reportFill r s2 else s2

/-! ### The fetch end -/

/-- The first fetch end on its way that names a record, and the others. -/
def takeFetchEnd (r : Nat) : List (Nat × Bool) → Option (Bool × List (Nat × Bool))
  | [] => none
  | (q, ok) :: rest =>
    if q = r then some (ok, rest)
    else match takeFetchEnd r rest with
      | none => none
      | some (x, others) => some (x, (q, ok) :: others)

/-- A fetch end with error in FILLING: the frame leaves its queue and retires with HOST_READ_ERROR, and where it was the
head the ES is told (R16); that its admin completions come before an activation's is the model's choice (log entry 34).
-/
def failFilling (r : Nat) (s : State) : State :=
  let f := s.frame r
  let l := (s.flow f.flow).link
  let head := isHead r s
  let s1 := s.setFrame r { f with fetchEnded := true, cause := firstCause f.cause (some .hostReadError) }
  let s2 := retire r (leaveQueue r s1)
  if head then consider l s2 else s2

/-- A fetch end taken by the BM against a record that passed its check (R15, R16, R111, R114). -/
def applyFetchEnd (r : Nat) (ok : Bool) (s : State) : State :=
  let f := s.frame r
  let ended := { f with fetchEnded := true }
  match f.state with
  | .filling => if ok then s.setFrame r ended else failFilling r s
  | .ready => s.setFrame r ended
  | .sending =>
    if ok then s.setFrame r ended
    else
      (s.setFrame r { ended with cause := firstCause f.cause (some .fetchAborted) }).onLu fun b =>
        { b with aborts := b.aborts ++ [((s.flow f.flow).link, r)] }
  | .closing | .discarding => retire r (s.setFrame r ended)
  | .free => s

/-- A fetch end event: the report taken off those on their way, discarded unless the device is RUNNING (R19), not carried
out where the record is uncorrectable (R18). -/
def fetchEndEvent (r : Nat) (s : State) : State :=
  match takeFetchEnd r s.bm.fetchEnds with
  | none => s
  | some (ok, rest) =>
    let s1 := s.onBm fun b => { b with fetchEnds := rest }
    if s1.hp.device = .running then
      match checkRecord r s1 with
      | (true, s2) => applyFetchEnd r ok s2
      | (false, s2) => s2
    else s1

/-! ### The commands -/

/-- FETCH_SLOT_GRANT (R45, R47, R48): where a retry claims the slot the grant is RETRY's. DESIGN CHOICE (log entry 33): an
entry marked yes whose retry got no answer does not bar new descriptor reads. -/
def execFetchSlotGrant (s : State) : Outcome State Fault Refusal :=
  .next <|
    if s.hp.device = .running ∧ retryClaim s = none then
      match idleSlot s, readClaim s with
      | some i, some n => grantRead i n s
      | _, _ => s
    else s

/-- The outcome of a retry from the flow-state check on (R57). DESIGN CHOICE (log entry 32): where the need is above the
cap and the policy is DISCARD, two rows of R57's table apply, and the one for the cap is taken. -/
def retryHeld (i : Nat) (ring : Nat) (h : HeldCopy) (s : State) : State :=
  let d := h.descriptor
  match requestAdmission ring d h.need s with
  | (.noAnswer, s1) =>
    s1.onDfu fun b => { b with held := b.held.map fun e => if e.ring = ring then { e with stopped := true } else e }
  | (.notReady, s1) => completeUnadmitted ring d.tag .flowNotReady .none (clearHeld ring s1)
  | (.noRoom, s1) =>
    if (s1.flow d.flow).cap < h.need then
      completeUnadmitted ring d.tag .invalidDescriptor .exceedsCap (clearHeld ring s1)
    else match (s1.flow d.flow).policy with
      | .discard => completeUnadmitted ring d.tag .droppedNoBuffer .none (clearHeld ring s1)
      | .hold => holdDescriptor ring h (clearHeld ring s1)
  | (.admitted r, s1) => startAdmitted i ring r d (clearHeld ring s1)

/-- RETRY (R46, R57). -/
def execRetry (upsets : List Upset) (s : State) : Outcome State Fault Refusal :=
  let s0 := strike upsets s
  .next <|
    if s0.hp.device = .running then
      match idleSlot s0, retryClaim s0 with
      | some i, some e =>
        match (s0.sq e.ring).held with
        | some h => retryHeld i e.ring h s0
        | none => s0
      | _, _ => s0
    else s0

/-- DESCRIPTOR_READ_RETURN (R49, R50); a response for which no descriptor read is outstanding is discarded (R178), and
outside RUNNING the data is discarded (R65). -/
def execDescriptorReadReturn (slot : Fin 8) (data : BitVec 512) (upsets : List Upset) (s : State) :
    Outcome State Fault Refusal :=
  let s0 := strike upsets s
  .next <|
    match s0.slot slot with
    | .descRead ring ringSlot =>
      if awaitsResponse s0 slot then
        if s0.hp.device = .running then returnDescriptor slot ring ringSlot data (freeRead slot s0)
        else discardSlotRead slot (freeRead slot s0)
      else s0
    | .idle | .payload .. => s0

/-- DESCRIPTOR_READ_ERROR (R51). -/
def execDescriptorReadError (slot : Fin 8) (s : State) : Outcome State Fault Refusal :=
  .next <|
    match s.slot slot with
    | .descRead _ _ => if awaitsResponse s slot then failSlotRead slot s else s
    | .idle | .payload .. => s

/-- PAYLOAD_READ_RETURN (R59): the data of a read whole, every byte of it (R178; log entry 16). -/
def execPayloadReadReturn (slot : Fin 8) (data : List Byte) (upsets : List Upset) (s : State) :
    Outcome State Fault Refusal :=
  let s0 := strike upsets s
  .next <|
    match s0.slot slot, s0.read slot with
    | .payload ring r segments current offset, some e =>
      if e.cutOff = false ∧ data.length = e.length then
        if s0.hp.device = .running then returnPayload slot ring r segments current offset data (freeRead slot s0)
        else discardSlotRead slot (freeRead slot s0)
      else s0
    | _, _ => s0

/-- PAYLOAD_READ_ERROR (R60). -/
def execPayloadReadError (slot : Fin 8) (s : State) : Outcome State Fault Refusal :=
  .next <|
    match s.slot slot with
    | .payload _ _ _ _ _ => if awaitsResponse s slot then failSlotRead slot s else s
    | .idle | .descRead _ _ => s

/-- HOST_READ_TIMEOUT (R178): an outstanding read, cut off or not, ends by timeout. -/
def execHostReadTimeout (entry : Fin 9) (s : State) : Outcome State Fault Refusal :=
  .next <|
    if (s.read entry).isSome then
      if entry.val < slotTotal then failSlotRead entry s else failAdminRead s
    else s

/-- STRAY_READ_RESPONSE (R178): a response for which no entry is outstanding is discarded. -/
def execStrayReadResponse (_entry : Fin 9) (s : State) : Outcome State Fault Refusal := .next s

/-- FETCH_END (R15). -/
def execFetchEnd (record : Fin 2048) (upsets : List Upset) (s : State) : Outcome State Fault Refusal :=
  .next (fetchEndEvent record (strike upsets s))

end Sys2Proof.Machine
end

