-- ==== Sys2Proof/Machine/AdminRing.lean ====
section
/-! DEFINITION. The admin ring's own commands (chapter 8) and the admin commands over rings, the error policy and the pool: the event in which a command read returns and its command is taken (R137), CREATE_SQ, DELETE_SQ, CREATE_CQ, DELETE_CQ, SET_ERROR_POLICY, QUERY_POOL, UNKNOWN_COMMAND, COMMAND_READ_START, COMMAND_READ_ERROR. -/

namespace Sys2Proof.Machine

open Sys2Proof Host

/-! ### Taking a command -/

/-- The AP takes the command its read returned (R137): the entry freed, and, while RUNNING, the ASR head advanced, the
command's own effect, and the next read if R136 allows it. Without an outstanding read the response is discarded (R178);
outside RUNNING the read is discarded and its command not taken (R151 to R153). -/
def takeCommand (effect : State → State) (s : State) : State :=
  if awaitsResponse s adminReadEntry then
    let s1 := freeRead adminReadEntry s
    if s1.hp.device = .running then
      if s1.ap.state = .reading then
        startCommandRead (effect (s1.onAp fun b => { b with
          state := .idle, asrHead := advance s1.hp.asrSize.toNat b.asrHead }))
      else s1
    else discardAdminRead s1
  else s

/-- A command's state after its checks where they passed, unchanged otherwise, and its admin completion in the same event
(R141). -/
def shortCommand (tag : BitVec 16) (kind : Nat) (status : AdminStatus) (effect : State → State) (s : State) : State :=
  adminComplete tag kind status 0 (if status = .ok then effect s else s)

/-! ### Ring commands -/

/-- The checks of CREATE_SQ in their order (R62). -/
def createSqStatus (s : State) (ring cq size limit : Nat) (base : Address) : AdminStatus :=
  if 31 < ring then .badParameter
  else if base.toNat % 64 ≠ 0 ∨ !ringSizes.contains size ∨ 15 < cq ∨ limit < 1 ∨ 2048 < limit
      ∨ (s.cq cq).state ≠ .active then .badParameter
  else if (s.sq ring).state ≠ .absent then .badState
  else .ok

/-- The context CREATE_SQ writes (R62). -/
def createdSq (cq size limit : Nat) (base : Address) : SqContext :=
  { SqContext.reset with state := .active, base := base, size := size, cq := cq, limit := limit }

/-- CREATE_SQ (R62). -/
def execCreateSq (tag : BitVec 16) (ring cq : BitVec 8) (size limit : BitVec 16) (base : Address) (s : State) :
    Outcome State Fault Refusal :=
  .next <| takeCommand (fun t =>
    shortCommand tag 0x01 (createSqStatus t ring.toNat cq.toNat size.toNat limit.toNat base)
      (fun u => u.setSq ring.toNat (createdSq cq.toNat size.toNat limit.toNat base)) t) s

/-- DELETE_SQ taken on an ACTIVE or ERROR ring (R63): DELETING, its held descriptor completed RING_DELETED, the command
outstanding, and the deletion ended at once where nothing is in flight. DESIGN CHOICE (log entry 31): a held descriptor
whose retry got no answer is completed like any other. -/
def beginDeletion (tag : BitVec 16) (n : Nat) (s : State) : State :=
  let s1 := s.setSq n { s.sq n with state := .deleting }
  let s2 := match (s1.sq n).held with
    | none => s1
    | some h => completeUnadmitted n h.descriptor.tag .ringDeleted .none (clearHeld n s1)
  endDeletion n (appendOutstanding (.deleteSq n) tag s2)

/-- DELETE_SQ (R63). -/
def execDeleteSq (tag : BitVec 16) (ring : BitVec 8) (s : State) : Outcome State Fault Refusal :=
  .next <| takeCommand (fun t =>
    if 31 < ring.toNat then adminComplete tag 0x02 .badParameter 0 t
    else match (t.sq ring.toNat).state with
      | .absent => adminComplete tag 0x02 .notFound 0 t
      | .deleting => adminComplete tag 0x02 .busy 0 t
      | .active | .error => beginDeletion tag ring.toNat t) s

/-- The checks of CREATE_CQ in their order (R130). -/
def createCqStatus (s : State) (ring vector threshold size holdoff : Nat) (base : Address) : AdminStatus :=
  if 15 < ring then .badParameter
  else if base.toNat % 16 ≠ 0 ∨ !ringSizes.contains size ∨ vector < 1 ∨ 16 < vector ∨ threshold < 1 ∨ 255 < threshold
      ∨ 4095 < holdoff then .badParameter
  else if (s.cq ring).state ≠ .absent then .badState
  else .ok

/-- The context CREATE_CQ writes (R130). -/
def createdCq (vector threshold size holdoff : Nat) (base : Address) : CqContext :=
  { CqContext.reset with
    state := .active, base := base, size := size, vector := vector, threshold := threshold, holdoff := holdoff }

/-- CREATE_CQ (R130). -/
def execCreateCq (tag : BitVec 16) (ring vector threshold : BitVec 8) (size holdoff : BitVec 16) (base : Address)
    (s : State) : Outcome State Fault Refusal :=
  .next <| takeCommand (fun t =>
    shortCommand tag 0x03 (createCqStatus t ring.toNat vector.toNat threshold.toNat size.toNat holdoff.toNat base)
      (fun u => u.setCq ring.toNat (createdCq vector.toNat threshold.toNat size.toNat holdoff.toNat base)) t) s

/-- Whether a submission ring that is not ABSENT is bound to a completion ring (R131). -/
def cqBound (s : State) (c : Nat) : Bool :=
  (List.range sqTotal).any fun n => decide ((s.sq n).state ≠ .absent) && decide ((s.sq n).cq = c)

/-- The checks of DELETE_CQ in their order (R131). -/
def deleteCqStatus (s : State) (ring : Nat) : AdminStatus :=
  if 15 < ring then .badParameter
  else if (s.cq ring).state = .absent then .notFound
  else if cqBound s ring then .badState
  else .ok

/-- DELETE_CQ (R131). -/
def execDeleteCq (tag : BitVec 16) (ring : BitVec 8) (s : State) : Outcome State Fault Refusal :=
  .next <| takeCommand (fun t =>
    shortCommand tag 0x04 (deleteCqStatus t ring.toNat) (fun u => u.setCq ring.toNat CqContext.reset) t) s

/-! ### Commands over the error policy and the pool -/

/-- SET_ERROR_POLICY (R148). -/
def execSetErrorPolicy (tag : BitVec 16) (threshold : Word32) (s : State) : Outcome State Fault Refusal :=
  .next <| takeCommand (fun t =>
    shortCommand tag 0x40 (if threshold.toNat < 1 ∨ 65535 < threshold.toNat then .badParameter else .ok)
      (fun u => u.onEc fun b => { b with threshold := threshold.toNat }) t) s

/-- The result of QUERY_POOL (R147, section 11.5), as the number in bytes 8 to 27. -/
def poolResult (s : State) : Nat :=
  (layout 160 [(0, 2, s.bm.freeCount), (2, 2, s.bm.freeRecords.length), (4, 2, s.ec.cellDataCount),
    (6, 2, s.ec.linkTableCount), (8, 2, s.ec.frameTableCount)]).toNat

/-- QUERY_POOL (R147). -/
def execQueryPool (tag : BitVec 16) (s : State) : Outcome State Fault Refusal :=
  .next <| takeCommand (fun t => adminComplete tag 0x41 .ok (poolResult t) t) s

/-- UNKNOWN_COMMAND (R137): a kind that is none of the seventeen is completed at once, the kind returned as read. -/
def execUnknownCommand (tag : BitVec 16) (kind : BitVec 8) (s : State) : Outcome State Fault Refusal :=
  .next <| takeCommand (fun t => adminComplete tag kind.toNat .unknownCommand 0 t) s

/-! ### The command read -/

/-- COMMAND_READ_START (R136). -/
def execCommandReadStart (s : State) : Outcome State Fault Refusal := .next (startCommandRead s)

/-- COMMAND_READ_ERROR (R138). -/
def execCommandReadError (s : State) : Outcome State Fault Refusal :=
  .next <| if awaitsResponse s adminReadEntry then failAdminRead s else s

end Sys2Proof.Machine
end

