-- ==== Sys2Proof/Machine/FlowCommands.lean ====
section
/-! DEFINITION. The flow commands (chapter 2): CONFIGURE_FLOW, ENABLE_FLOW, DISABLE_FLOW, FLUSH_FLOW with its walk, QUERY_FLOW. -/

namespace Sys2Proof.Machine

open Sys2Proof Host

/-- The checks of CONFIGURE_FLOW in their order (R27, R28). -/
def configureFlowStatus (s : State) (flow link cls cap : Nat) (policy : BitVec 8) (threshold : Nat) : AdminStatus :=
  if 127 < flow then .badParameter
  else if 3 < link ∨ 7 < cls ∨ cap < 1 ∨ 8192 < cap ∨ policyOf policy = none ∨ 8 < threshold then .badParameter
  else match (s.flow flow).state with
    | .unconfigured => .ok
    | .disabled => if (s.flow flow).held = 0 then .ok else .badState
    | .enabled | .flushing => .badState

/-- The context CONFIGURE_FLOW writes (R28): the five configuration fields, the counts of frames sent and flushed at 0,
DISABLED. -/
def configuredFlow (c : FlowContext) (link cls cap : Nat) (policy : BitVec 8) (threshold : Nat) : FlowContext :=
  { c with state := .disabled, link := link, cls := cls, cap := cap, policy := (policyOf policy).getD .hold,
           threshold := threshold, sent := 0, flushed := 0 }

/-- CONFIGURE_FLOW (R28, R31). -/
def execConfigureFlow (tag : BitVec 16) (flow : BitVec 16) (link cls : BitVec 8) (cap : BitVec 16)
    (policy threshold : BitVec 8) (s : State) : Outcome State Fault Refusal :=
  .next <| takeCommand (fun t =>
    shortCommand tag 0x10 (configureFlowStatus t flow.toNat link.toNat cls.toNat cap.toNat policy threshold.toNat)
      (fun u => markFlowReady flow.toNat (u.setFlow flow.toNat
        (configuredFlow (u.flow flow.toNat) link.toNat cls.toNat cap.toNat policy threshold.toNat))) t) s

/-- The checks of ENABLE_FLOW in their order (R27, R29). -/
def enableFlowStatus (s : State) (flow : Nat) : AdminStatus :=
  if 127 < flow then .badParameter
  else match (s.flow flow).state with
    | .unconfigured => .notFound
    | .disabled => .ok
    | .enabled | .flushing => .badState

/-- ENABLE_FLOW (R29, R31). -/
def execEnableFlow (tag : BitVec 16) (flow : BitVec 16) (s : State) : Outcome State Fault Refusal :=
  .next <| takeCommand (fun t =>
    shortCommand tag 0x11 (enableFlowStatus t flow.toNat)
      (fun u => markFlowReady flow.toNat (u.setFlow flow.toNat { u.flow flow.toNat with state := .enabled })) t) s

/-- The checks of DISABLE_FLOW in their order (R27, R30). -/
def disableFlowStatus (s : State) (flow : Nat) : AdminStatus :=
  if 127 < flow then .badParameter
  else match (s.flow flow).state with
    | .unconfigured => .notFound
    | .enabled => .ok
    | .disabled | .flushing => .badState

/-- DISABLE_FLOW (R30, R31). -/
def execDisableFlow (tag : BitVec 16) (flow : BitVec 16) (s : State) : Outcome State Fault Refusal :=
  .next <| takeCommand (fun t =>
    shortCommand tag 0x12 (disableFlowStatus t flow.toNat)
      (fun u => markFlowReady flow.toNat (u.setFlow flow.toNat { u.flow flow.toNat with state := .disabled })) t) s

/-! ### FLUSH_FLOW -/

/-- The rings of the held list whose held descriptor names a flow, in list order. -/
def heldRings (s : State) (flow : Nat) : List Nat :=
  (s.dfu.held.filter fun e => match (s.sq e.ring).held with
    | some h => decide (h.descriptor.flow = flow)
    | none => false).map HeldEntry.ring

/-- The held descriptor of a ring completed FLOW_NOT_READY by a flush (R33, R58). DESIGN CHOICE (log entry 31): one whose
retry got no answer is completed like any other. -/
def flushHeld (s : State) (ring : Nat) : State :=
  match (s.sq ring).held with
  | none => s
  | some h => completeUnadmitted ring h.descriptor.tag .flowNotReady .none (clearHeld ring s)

/-- One record of the walk (R34), with the ring of the retirement that left the flow no cells, if it was this one. A
deletion that ends at that retirement waits for the flush's end (R115). -/
def flushRecord (flow : Nat) (a : Option Nat × State) (r : Nat) : Option Nat × State :=
  let s := a.2
  let f := s.frame r
  let flushed := { f with cause := firstCause f.cause (some .flushed) }
  match f.state with
  | .ready =>
    if f.fetchEnded then
      let s1 := retireRecord r (leaveQueue r (s.setFrame r flushed))
      if (s1.flow flow).held = 0 then (some f.ring, s1) else (a.1, endDeletion f.ring s1)
    else (a.1, leaveQueue r (s.setFrame r { flushed with state := .discarding }))
  | .filling => (a.1, leaveQueue r (s.setFrame r { flushed with state := .discarding }))
  | .free | .sending | .closing | .discarding => a

/-- FLUSH_FLOW taken on an ENABLED or DISABLED flow whose queue's records passed their checks (R33, R34): FLUSHING, its
held descriptors completed, the walk, the report to the ES where the head changed, and then the flush's end with the
deletion that ended with it, or the command outstanding. The completions of commands outstanding earlier come first
(R144; log entry 14). -/
def beginFlush (tag : BitVec 16) (flow : Nat) (s : State) : State :=
  let head := (s.flow flow).queue.head?
  let s1 := s.setFlow flow { s.flow flow with state := .flushing, flushed := 0 }
  let s2 := (heldRings s1 flow).foldl flushHeld s1
  let w := (s2.flow flow).queue.foldl (flushRecord flow) (none, s2)
  let s3 := w.2
  let s4 := if (s3.flow flow).queue.head? = head then s3 else consider (s3.flow flow).link s3
  let s5 := if (s4.flow flow).held = 0 then
      adminComplete tag 0x13 .ok ((s4.flow flow).flushed % 2 ^ 16)
        (s4.setFlow flow { s4.flow flow with state := .disabled })
    else appendOutstanding (.flushFlow flow) tag s4
  match w.1 with
  | none => s5
  | some ring => endDeletion ring s5

/-- FLUSH_FLOW as its owner decides it (R27, R33); ABORTED, with the flow left as it was, where a record of its queue is
uncorrectable (R18). -/
def flushFlow (tag : BitVec 16) (flow : Nat) (s : State) : State :=
  if 127 < flow then adminComplete tag 0x13 .badParameter 0 s
  else match (s.flow flow).state with
    | .unconfigured => adminComplete tag 0x13 .notFound 0 s
    | .flushing => adminComplete tag 0x13 .busy 0 s
    | .enabled | .disabled =>
      match checkRecords (s.flow flow).queue s with
      | (true, s1) => beginFlush tag flow s1
      | (false, s1) => adminComplete tag 0x13 .aborted 0 s1

/-- FLUSH_FLOW (R33). -/
def execFlushFlow (tag : BitVec 16) (flow : BitVec 16) (s : State) : Outcome State Fault Refusal :=
  .next <| takeCommand (flushFlow tag flow.toNat) s

/-! ### QUERY_FLOW -/

/-- The result of QUERY_FLOW (R32, section 11.5), as the number in bytes 8 to 27. -/
def flowResult (c : FlowContext) : Nat :=
  (layout 160 [(0, 1, c.state.code), (2, 2, c.queue.length), (4, 2, c.held), (6, 4, c.sent.toNat)]).toNat

/-- QUERY_FLOW (R32). -/
def execQueryFlow (tag : BitVec 16) (flow : BitVec 16) (s : State) : Outcome State Fault Refusal :=
  .next <| takeCommand (fun t =>
    if 127 < flow.toNat then adminComplete tag 0x14 .badParameter 0 t
    else adminComplete tag 0x14 .ok (flowResult (t.flow flow.toNat)) t) s

end Sys2Proof.Machine
end

