-- ==== Sys2Proof/Machine/LinkCommands.lean ====
section
/-! DEFINITION. The admin commands over links and calendars (chapters 4 and 5): ENABLE_LINK, DISABLE_LINK, SET_CLASS_MAP, QUERY_LINK, WRITE_CALENDAR, ACTIVATE_CALENDAR. -/

namespace Sys2Proof.Machine

open Sys2Proof Host

/-- ENABLE_LINK taken on a DISABLED or FAILED link (R75): the cause absent, the credit 0, AWAIT_PARTNER, the command
owed, OFFER sent, both timers started. -/
def beginEnable (tag : BitVec 16) (l timeout : Nat) (s : State) : State :=
  let s1 := s.setLink l { s.link l with
    state := .awaitPartner, cause := none, announced := [], available := [], offerTimer := some offerMs,
    linkUpTimer := some timeout, outstanding := some .enable }
  appendOutstanding (.enableLink l) tag (s1.send l (.offer l))

/-- ENABLE_LINK as its owner decides it (R75). -/
def enableLink (tag : BitVec 16) (l timeout : Nat) (s : State) : State :=
  if 3 < l ∨ timeout < 1 ∨ 1000 < timeout then adminComplete tag 0x20 .badParameter 0 s
  else match (s.link l).state with
    | .disabled | .failed => beginEnable tag l timeout s
    | .awaitPartner | .draining => adminComplete tag 0x20 .busy 0 s
    | .active => adminComplete tag 0x20 .badState 0 s

/-- ENABLE_LINK (R75). -/
def execEnableLink (tag : BitVec 16) (link : BitVec 8) (timeout : BitVec 16) (s : State) :
    Outcome State Fault Refusal :=
  .next <| takeCommand (enableLink tag link.toNat timeout.toNat) s

/-- DISABLE_LINK taken in AWAIT_PARTNER (R78): the timers stopped, DOWN, DISABLED, the ENABLE_LINK ABORTED, then the
DISABLE_LINK OK. -/
def disableAwaiting (tag : BitVec 16) (l : Nat) (s : State) : State :=
  let s1 := clearCredit l .disabled ((s.setLink l { s.link l with offerTimer := none, linkUpTimer := none }).send l (.down l))
  adminComplete tag 0x21 .ok 0 (endLinkCommand l .aborted s1)

/-- DISABLE_LINK taken in ACTIVE (R78): with the serializer idle DOWN, credit 0, DISABLED, OK; with it busy DRAINING and
the command outstanding; a pending activation applied after (R99). -/
def disableActive (tag : BitVec 16) (l : Nat) (s : State) : State :=
  if (s.link l).serializer = none then
    applyAtDeparture l (adminComplete tag 0x21 .ok 0 (clearCredit l .disabled (s.send l (.down l))))
  else
    applyAtDeparture l (appendOutstanding (.disableLink l) tag
      (s.setLink l { s.link l with state := .draining, outstanding := some .disable }))

/-- DISABLE_LINK as its owner decides it (R78). -/
def disableLink (tag : BitVec 16) (l : Nat) (s : State) : State :=
  if 3 < l then adminComplete tag 0x21 .badParameter 0 s
  else match (s.link l).state with
    | .disabled => adminComplete tag 0x21 .ok 0 s
    | .awaitPartner => disableAwaiting tag l s
    | .active => disableActive tag l s
    | .draining => adminComplete tag 0x21 .busy 0 s
    | .failed => adminComplete tag 0x21 .ok 0 (clearCredit l .disabled s)

/-- DISABLE_LINK (R78). -/
def execDisableLink (tag : BitVec 16) (link : BitVec 8) (s : State) : Outcome State Fault Refusal :=
  .next <| takeCommand (disableLink tag link.toNat) s

/-! ### SET_CLASS_MAP and QUERY_LINK -/

/-- The checks of SET_CLASS_MAP in their order (R82). -/
def setClassMapStatus (s : State) (l : Nat) (lanes : BitVec 64) : AdminStatus :=
  if 3 < l ∨ (List.range 8).any (fun c => decide (3 < classLane lanes c)) then .badParameter
  else if (s.link l).state = .disabled then .ok
  else .badState

/-- The class map that eight lane values make (R81, R82). -/
def classMapOf (lanes : BitVec 64) : Table Nat :=
  (List.range 8).foldl (fun t c => tableSet laneUnlisted t c (classLane lanes c)) []

/-- SET_CLASS_MAP (R82). -/
def execSetClassMap (tag : BitVec 16) (link mask : BitVec 8) (lanes : BitVec 64) (s : State) :
    Outcome State Fault Refusal :=
  .next <| takeCommand (fun t =>
    shortCommand tag 0x22 (setClassMapStatus t link.toNat lanes)
      (fun u => u.setSched link.toNat { u.sched link.toNat with classMap := classMapOf lanes, mask := mask }) t) s

/-- The result of QUERY_LINK (R83, section 11.5), as the number in bytes 8 to 27. -/
def linkResult (s : State) (l : Nat) : Nat :=
  (layout 160 [(0, 1, (s.link l).state.code), (1, 1, causeCode (s.link l).cause),
    (2, 2, s.available l 0), (4, 2, s.available l 1), (6, 2, s.available l 2), (8, 2, s.available l 3),
    (10, 2, s.announced l 0), (12, 2, s.announced l 1), (14, 2, s.announced l 2), (16, 2, s.announced l 3),
    (18, 1, (s.sched l).pointer), (19, 1, bit (s.sched l).activation)]).toNat

/-- QUERY_LINK (R83). -/
def execQueryLink (tag : BitVec 16) (link : BitVec 8) (s : State) : Outcome State Fault Refusal :=
  .next <| takeCommand (fun t =>
    if 3 < link.toNat then adminComplete tag 0x23 .badParameter 0 t
    else adminComplete tag 0x23 .ok (linkResult t link.toNat) t) s

/-! ### Calendars -/

/-- The checks of WRITE_CALENDAR in their order (R96). -/
def writeCalendarStatus (s : State) (l start count : Nat) : AdminStatus :=
  if 3 < l ∨ 63 < start ∨ count < 1 ∨ 64 < count ∨ 64 < start + count then .badParameter
  else if (s.sched l).activation then .busy
  else .ok

/-- The shadow calendar with slots `start` to `start + count − 1` taking the entries in order (R96). -/
def writtenShadow (shadow : Table (Option Nat)) (start count : Nat) (blank : BitVec 8) (entries : BitVec 448) :
    Table (Option Nat) :=
  (List.range count).foldl (fun t j => tableSet calendarUnlisted t (start + j) (calendarEntry entries blank j)) shadow

/-- WRITE_CALENDAR (R96). -/
def execWriteCalendar (tag : BitVec 16) (link start count blank : BitVec 8) (entries : BitVec 448) (s : State) :
    Outcome State Fault Refusal :=
  .next <| takeCommand (fun t =>
    shortCommand tag 0x30 (writeCalendarStatus t link.toNat start.toNat count.toNat)
      (fun u => u.setSched link.toNat { u.sched link.toNat with
        shadow := writtenShadow (u.sched link.toNat).shadow start.toNat count.toNat blank entries }) t) s

/-- ACTIVATE_CALENDAR taken (R98): activation pending and the command outstanding; applied at once where the link is not
ACTIVE, or is ACTIVE with an idle serializer and every queue empty; otherwise the link is considered, which may apply it
at the wrap. An apply ends the command with its admin completion before the search goes on (R93, R97; log entry 14). -/
def beginActivation (tag : BitVec 16) (l : Nat) (s : State) : State :=
  let s1 := appendOutstanding (.activateCalendar l) tag (s.setSched l { s.sched l with activation := true })
  if (s1.link l).state = .active then consider l s1 else applyActivation l s1

/-- ACTIVATE_CALENDAR as its owner decides it (R98). -/
def activateCalendar (tag : BitVec 16) (l : Nat) (s : State) : State :=
  if 3 < l then adminComplete tag 0x31 .badParameter 0 s
  else if (s.sched l).activation then adminComplete tag 0x31 .busy 0 s
  else beginActivation tag l s

/-- ACTIVATE_CALENDAR (R98). -/
def execActivateCalendar (tag : BitVec 16) (link : BitVec 8) (s : State) : Outcome State Fault Refusal :=
  .next <| takeCommand (activateCalendar tag link.toNat) s

end Sys2Proof.Machine
end

