-- ==== Sys2Proof/Machine/Partner.lean ====
section
/-! DEFINITION. The partner's messages (R70 to R74, R184), the link timers (R76, R77), and the serializer's events: CELL_SENT, UNDERRUN_TIMER_EXPIRY, ABORT_ORDER (chapter 6). -/

namespace Sys2Proof.Machine

open Sys2Proof Host

/-! ### Messages -/

/-- The credit of four lanes. -/
def fourLanes (a b c d : Nat) : Table Nat :=
  tableSet creditUnlisted (tableSet creditUnlisted (tableSet creditUnlisted (tableSet creditUnlisted [] 0 a) 1 b) 2 c) 3 d

/-- A READY taken in AWAIT_PARTNER brings the link up (R73). -/
def bringUp (l a b c d : Nat) (s : State) : State :=
  let credit := fourLanes a b c d
  let s1 := s.setLink l { s.link l with
    state := .active, announced := credit, available := credit, offerTimer := none, linkUpTimer := none }
  consider l (endLinkCommand l .ok s1)

/-- Whether a READY carries four credits the part can take (R184). -/
def readyOk (a b c d : BitVec 16) : Bool :=
  decide (a.toNat ≤ largestCredit) && decide (b.toNat ≤ largestCredit) && decide (c.toNat ≤ largestCredit)
    && decide (d.toNat ≤ largestCredit)

/-- READY (R73); one with a credit above 1023 is malformed (R184). -/
def execReady (link : Fin 4) (credit0 credit1 credit2 credit3 : BitVec 16) (s : State) : Outcome State Fault Refusal :=
  .next <|
    if readyOk credit0 credit1 credit2 credit3 ∧ s.hp.device = .running ∧ (s.link link).state = .awaitPartner then
      bringUp link credit0.toNat credit1.toNat credit2.toNat credit3.toNat s
    else protocolError link s

/-- A CREDIT in ACTIVE or DRAINING (R72). -/
def takeCredit (l lane count : Nat) (s : State) : State :=
  if s.available l lane + count ≤ s.announced l lane then
    consider l (s.setAvailable l lane (s.available l lane + count))
  else failLinkEvent l .creditOverflow s

/-- CREDIT (R72); one with a lane above 3 or a count outside 1 to 1023 is malformed (R184). -/
def execCredit (link : Fin 4) (lane : BitVec 8) (count : BitVec 16) (s : State) : Outcome State Fault Refusal :=
  .next <|
    if lane.toNat < laneTotal ∧ 1 ≤ count.toNat ∧ count.toNat ≤ largestCredit then
      if s.hp.device = .running ∧ ((s.link link).state = .active ∨ (s.link link).state = .draining) then
        takeCredit link lane.toNat count.toNat s
      else s
    else protocolError link s

/-- A partner DOWN ends a drain: the frame LINK_LOST, the credit 0, DISABLED, the DISABLE_LINK OK, no DOWN and no notice
(R74). DESIGN CHOICE (log entry 34): the admin completions of the frame's retirement come before the DISABLE_LINK's. -/
def downInDrain (l : Nat) (s : State) : State :=
  match checkSending l s with
  | (true, s1) => endLinkCommand l .ok (clearCredit l .disabled (loseFrame l s1))
  | (false, s1) => s1

/-- DOWN (R74); its field is not checked (R184). -/
def execDown (link : Fin 4) (_field : BitVec 8) (s : State) : Outcome State Fault Refusal :=
  .next <|
    if s.hp.device = .running then
      match (s.link link).state with
      | .active => failLinkEvent link .partnerDown s
      | .draining => downInDrain link s
      | .disabled | .awaitPartner | .failed => s
    else s

/-- MALFORMED_MESSAGE (R70). -/
def execMalformedMessage (link : Fin 4) (s : State) : Outcome State Fault Refusal := .next (protocolError link s)

/-! ### Link timers -/

/-- OFFER_TIMER_EXPIRY (R76): where the timer runs in AWAIT_PARTNER, OFFER is sent and the timer started again. -/
def execOfferTimerExpiry (link : Fin 4) (s : State) : Outcome State Fault Refusal :=
  .next <|
    if s.hp.device = .running ∧ (s.link link).state = .awaitPartner ∧ (s.link link).offerTimer.isSome then
      (s.setLink link { s.link link with offerTimer := some offerMs }).send link (.offer link)
    else s

/-- LINK_UP_TIMER_EXPIRY (R77): both timers stopped, DOWN, DISABLED with credit 0, the ENABLE_LINK completed TIMEOUT. -/
def execLinkUpTimerExpiry (link : Fin 4) (s : State) : Outcome State Fault Refusal :=
  .next <|
    if s.hp.device = .running ∧ (s.link link).state = .awaitPartner ∧ (s.link link).linkUpTimer.isSome then
      endLinkCommand link .timeout (clearCredit link .disabled
        ((s.setLink link { s.link link with offerTimer := none, linkUpTimer := none }).send link (.down link)))
    else s

/-! ### The serializer's events -/

/-- CELL_SENT (R106): where the serializer is TRANSMITTING and has not been stopped (R18). -/
def execCellSent (link : Fin 4) (upsets : List Upset) (s : State) : Outcome State Fault Refusal :=
  let s0 := strike upsets s
  .next <|
    match (s0.link link).serializer with
    | none => s0
    | some z =>
      if s0.hp.device = .running ∧ z.state = .transmitting ∧ z.stopped = false then endCell link z s0 else s0

/-- UNDERRUN_TIMER_EXPIRY (R108): where the serializer is STARVED with its timer running. -/
def execUnderrunTimerExpiry (link : Fin 4) (s : State) : Outcome State Fault Refusal :=
  .next <|
    match (s.link link).serializer with
    | none => s
    | some z =>
      if s.hp.device = .running ∧ z.state = .starved ∧ z.timer.isSome ∧ z.stopped = false then
        abortEvent link .underrun s
      else s

/-- ABORT_ORDER (R111): an order on its way to the LU, taken; the frame ends ABORT with FETCH_ABORTED where the
serializer is sending the record the order names, and the order is ignored otherwise. -/
def execAbortOrder (link : Fin 4) (record : Fin 2048) (s : State) : Outcome State Fault Refusal :=
  .next <|
    if s.lu.aborts.contains (link.val, record.val) then
      let s1 := s.onLu fun b => { b with aborts := b.aborts.erase (link.val, record.val) }
      match (s1.link link).serializer with
      | none => s1
      | some z =>
        if s1.hp.device = .running ∧ z.record = record.val ∧ z.stopped = false then abortEvent link .fetchAborted s1
        else s1
    else s

end Sys2Proof.Machine
end

