-- ==== Sys2Proof/Machine/HostPort.lean ====
section
/-! DEFINITION. The commands of the host over the Host Port (chapter 10): power-on, the host-link reset, the writes of CONTROL, of the system ring registers, of the index ports, and of every other place of the window. -/

namespace Sys2Proof.Machine

open Sys2Proof Host

/-- POWER_ON (R171): every block at its power-on values; the commands that wait still wait. -/
def execPowerOn (s : State) : Outcome State Fault Refusal := .next { State.reset with pending := s.pending }

/-- HOST_LINK_RESET (R174, R178). -/
def execHostLinkReset (s : State) : Outcome State Fault Refusal := .next (startHostLinkReset s)

/-- FUNCTION_RESET, a CONTROL write with bit 1 set (R172, R174). -/
def execFunctionReset (word : Word32) (s : State) : Outcome State Fault Refusal := .next (writeControl word s)

/-- RUN, a CONTROL write with bit 1 clear and bit 0 set (R172, R173). -/
def execRun (word : Word32) (s : State) : Outcome State Fault Refusal := .next (writeControl word s)

/-- CONTAINMENT_MODE_WRITE, a CONTROL write with bits 1 and 0 clear (R172). -/
def execContainmentModeWrite (word : Word32) (s : State) : Outcome State Fault Refusal := .next (writeControl word s)

/-- SYSTEM_RING_REGISTER_WRITE (R175). -/
def execSystemRingRegisterWrite (reg : SystemRingRegister) (value : Word32) (s : State) :
    Outcome State Fault Refusal :=
  .next (writeSystemRegister reg value s)

/-- REGISTER_WRITE (R185): a write of the window by its offset and width. -/
def execRegisterWrite (offset width : Nat) (value : Word32) (s : State) : Outcome State Fault Refusal :=
  .next (writeWindow offset width value s)

/-- SQ_PRODUCER_INDEX_WRITE (R41, R176). -/
def execSqProducerIndexWrite (ring : Fin 32) (value : Word32) (s : State) : Outcome State Fault Refusal :=
  .next (writeSqPort ring value s)

/-- ASR_PRODUCER_INDEX_WRITE (R135, R176). -/
def execAsrProducerIndexWrite (value : Word32) (s : State) : Outcome State Fault Refusal := .next (writeAsrPort value s)

/-- CQ_CONSUMER_INDEX_WRITE (R125, R176). -/
def execCqConsumerIndexWrite (ring : Fin 16) (value : Word32) (s : State) : Outcome State Fault Refusal :=
  .next (writeCqPort ring value s)

/-- ACR_CONSUMER_INDEX_WRITE (R146, R149, R176). -/
def execAcrConsumerIndexWrite (value : Word32) (s : State) : Outcome State Fault Refusal := .next (writeAcrPort value s)

/-- NR_CONSUMER_INDEX_WRITE (R149, R168, R176). -/
def execNrConsumerIndexWrite (value : Word32) (s : State) : Outcome State Fault Refusal := .next (writeNrPort value s)

end Sys2Proof.Machine
end

