-- ==== Sys2Proof/Machine/Errors.lean ====
section
/-! DEFINITION. The expiry of a holdoff timer (R128) and the reports the EC takes (R156 to R163): a correction, an uncorrectable cell-data error, a fatal error. -/

namespace Sys2Proof.Machine

open Sys2Proof Host

/-- HOLDOFF_TIMER_EXPIRY (R128): where the timer runs, a message on the ring's vector, pending 0, the timer stopped. -/
def execHoldoffTimerExpiry (ring : Fin 16) (s : State) : Outcome State Fault Refusal :=
  .next <|
    if s.hp.device = .running ∧ (s.cq ring).timer.isSome then
      (s.setCq ring { s.cq ring with pending := 0, timer := none }).emit (.interrupt (s.cq ring).vector)
    else s

/-- A report taken by the EC is no longer on its way (R155; log entry 5). -/
def takeReport (r : EccReport) (s : State) : State := s.onEc fun b => { b with reports := b.reports.erase r }

/-- The correctable count of a memory (R154). -/
def correctableCount (s : State) : ProtectedMemory → Nat
  | .cellData => s.ec.cellDataCount
  | .linkTable => s.ec.linkTableCount
  | .frameTable => s.ec.frameTableCount

/-- The correctable count of a memory set. -/
def setCorrectableCount (m : ProtectedMemory) (n : Nat) (s : State) : State :=
  s.onEc fun b => match m with
    | .cellData => { b with cellDataCount := n }
    | .linkTable => { b with linkTableCount := n }
    | .frameTable => { b with frameTableCount := n }

/-- A correction counted (R156): at the threshold the notice carries the count as it has just become, and the count
returns to 0. -/
def countCorrection (m : ProtectedMemory) (s : State) : State :=
  let n := correctableCount s m + 1
  if s.ec.threshold ≤ n then raiseNotice (.correctableLimit m n) (setCorrectableCount m 0 s)
  else setCorrectableCount m n s

/-- CORRECTION_REPORT (R156): taken in RUNNING and FAILED, discarded elsewhere. -/
def execCorrectionReport (memory : ProtectedMemory) (s : State) : Outcome State Fault Refusal :=
  let s1 := takeReport (.correction memory) s
  .next <|
    match s1.hp.device with
    | .running | .failed => countCorrection memory s1
    | .stopped | .selfResetting | .resetting => s1

/-- CELL_DATA_ERROR_REPORT (R157): taken in RUNNING and FAILED, discarded elsewhere. -/
def execCellDataErrorReport (link : Fin 4) (cell : Fin 8192) (s : State) : Outcome State Fault Refusal :=
  let s1 := takeReport (.cellData link cell) s
  .next <|
    match s1.hp.device with
    | .running | .failed => raiseNotice (.cellDataError link cell) s1
    | .stopped | .selfResetting | .resetting => s1

/-- Containment of a fatal error taken in RUNNING, by the mode stored (R158 to R161). -/
def contain (cause : FatalCause) (s : State) : State :=
  let s1 := s.onEc fun b => { b with fatalCause := some cause }
  match s1.hp.mode with
  | .halt => enterFailed false s1
  | .haltLinksDown => enterFailed true s1
  | .selfReset => enterSelfResetting s1

/-- FATAL_REPORT (R158, R163): containment in RUNNING, MULTIPLE set in FAILED and SELF_RESETTING, discarded in STOPPED and
RESETTING. -/
def execFatalReport (cause : FatalCause) (s : State) : Outcome State Fault Refusal :=
  let s1 := takeReport (.fatal cause) s
  .next <|
    match s1.hp.device with
    | .running => contain cause s1
    | .failed | .selfResetting => s1.onEc fun b => { b with multiple := true }
    | .stopped | .resetting => s1

end Sys2Proof.Machine
end

