-- ==== Sys2Proof/Machine/Ends.lean ====
section
/-! DEFINITION. The rows that name an end which other events bring: the completion of a self-reset (R162) and of a function reset (R174), the end of a flush (R37), of a deletion (R64) and of a drain (R79), and the apply of a calendar activation (R97). Each has its effect where its condition holds (log entries 1 and 18). -/

namespace Sys2Proof.Machine

open Sys2Proof Host

/-- SELF_RESET_COMPLETION (R161, R162): in SELF_RESETTING with no read outstanding. -/
def execSelfResetCompletion (s : State) : Outcome State Fault Refusal :=
  .next <| if s.hp.device = .selfResetting ∧ readsEmpty s then completeSelfReset s else s

/-- FUNCTION_RESET_COMPLETION (R174): in RESETTING with no read outstanding. -/
def execFunctionResetCompletion (s : State) : Outcome State Fault Refusal :=
  .next <| if s.hp.device = .resetting ∧ readsEmpty s then completeFunctionReset s else s

/-- FLUSH_END (R37): where the flow is FLUSHING and its cells held is 0. -/
def execFlushEnd (flow : Fin 128) (s : State) : Outcome State Fault Refusal :=
  .next <| if s.hp.device = .running then endFlush flow s else s

/-- DELETION_END (R64): where the ring is DELETING and its in-flight count is 0. -/
def execDeletionEnd (ring : Fin 32) (s : State) : Outcome State Fault Refusal :=
  .next <| if s.hp.device = .running then endDeletion ring s else s

/-- DRAIN_END (R79): where the link is DRAINING and its serializer is IDLE. -/
def execDrainEnd (link : Fin 4) (s : State) : Outcome State Fault Refusal :=
  .next <|
    if s.hp.device = .running ∧ (s.link link).state = .draining ∧ (s.link link).serializer = none then endDrain link s
    else s

/-- ACTIVATION_APPLY (R97, R98, R99): where an activation is pending, and the link is not ACTIVE, or is ACTIVE with an idle
serializer and every queue empty. -/
def execActivationApply (link : Fin 4) (s : State) : Outcome State Fault Refusal :=
  .next <|
    if s.hp.device = .running ∧ (s.sched link).activation
        ∧ ((s.link link).state ≠ .active ∨ ((s.link link).serializer = none ∧ queuesEmpty s link)) then
      applyActivation link s
    else s

end Sys2Proof.Machine
end

