-- ==== Sys2Proof/Machine/Dispatch.lean ====
section
/-! DEFINITION. The dispatch: one arm per row of spec/opcode_table.json, in the table's order. -/

namespace Sys2Proof.Machine

open Sys2Proof Host

/-- The effect of a command on everything but the queue. -/
def exec (i : Instr) (s : State) : Host.Outcome State Fault Refusal :=
  match i with
  | .powerOn => Sys2Proof.Machine.execPowerOn s
  | .hostLinkReset => Sys2Proof.Machine.execHostLinkReset s
  | .functionReset word => Sys2Proof.Machine.execFunctionReset word s
  | .run word => Sys2Proof.Machine.execRun word s
  | .containmentModeWrite word => Sys2Proof.Machine.execContainmentModeWrite word s
  | .systemRingRegisterWrite reg value => Sys2Proof.Machine.execSystemRingRegisterWrite reg value s
  | .registerWrite offset width value => Sys2Proof.Machine.execRegisterWrite offset width value s
  | .sqProducerIndexWrite ring value => Sys2Proof.Machine.execSqProducerIndexWrite ring value s
  | .asrProducerIndexWrite value => Sys2Proof.Machine.execAsrProducerIndexWrite value s
  | .cqConsumerIndexWrite ring value => Sys2Proof.Machine.execCqConsumerIndexWrite ring value s
  | .acrConsumerIndexWrite value => Sys2Proof.Machine.execAcrConsumerIndexWrite value s
  | .nrConsumerIndexWrite value => Sys2Proof.Machine.execNrConsumerIndexWrite value s
  | .fetchSlotGrant => Sys2Proof.Machine.execFetchSlotGrant s
  | .retry upsets => Sys2Proof.Machine.execRetry upsets s
  | .descriptorReadReturn slot data upsets => Sys2Proof.Machine.execDescriptorReadReturn slot data upsets s
  | .descriptorReadError slot => Sys2Proof.Machine.execDescriptorReadError slot s
  | .payloadReadReturn slot data upsets => Sys2Proof.Machine.execPayloadReadReturn slot data upsets s
  | .payloadReadError slot => Sys2Proof.Machine.execPayloadReadError slot s
  | .hostReadTimeout entry => Sys2Proof.Machine.execHostReadTimeout entry s
  | .strayReadResponse entry => Sys2Proof.Machine.execStrayReadResponse entry s
  | .fetchEnd record upsets => Sys2Proof.Machine.execFetchEnd record upsets s
  | .commandReadStart => Sys2Proof.Machine.execCommandReadStart s
  | .commandReadError => Sys2Proof.Machine.execCommandReadError s
  | .createSq tag ring cq size limit base => Sys2Proof.Machine.execCreateSq tag ring cq size limit base s
  | .deleteSq tag ring => Sys2Proof.Machine.execDeleteSq tag ring s
  | .createCq tag ring vector threshold size holdoff base => Sys2Proof.Machine.execCreateCq tag ring vector threshold size holdoff base s
  | .deleteCq tag ring => Sys2Proof.Machine.execDeleteCq tag ring s
  | .configureFlow tag flow link cls cap policy threshold => Sys2Proof.Machine.execConfigureFlow tag flow link cls cap policy threshold s
  | .enableFlow tag flow => Sys2Proof.Machine.execEnableFlow tag flow s
  | .disableFlow tag flow => Sys2Proof.Machine.execDisableFlow tag flow s
  | .flushFlow tag flow => Sys2Proof.Machine.execFlushFlow tag flow s
  | .queryFlow tag flow => Sys2Proof.Machine.execQueryFlow tag flow s
  | .enableLink tag link timeout => Sys2Proof.Machine.execEnableLink tag link timeout s
  | .disableLink tag link => Sys2Proof.Machine.execDisableLink tag link s
  | .setClassMap tag link mask lanes => Sys2Proof.Machine.execSetClassMap tag link mask lanes s
  | .queryLink tag link => Sys2Proof.Machine.execQueryLink tag link s
  | .writeCalendar tag link start count blank entries => Sys2Proof.Machine.execWriteCalendar tag link start count blank entries s
  | .activateCalendar tag link => Sys2Proof.Machine.execActivateCalendar tag link s
  | .setErrorPolicy tag threshold => Sys2Proof.Machine.execSetErrorPolicy tag threshold s
  | .queryPool tag => Sys2Proof.Machine.execQueryPool tag s
  | .unknownCommand tag kind => Sys2Proof.Machine.execUnknownCommand tag kind s
  | .ready link credit0 credit1 credit2 credit3 => Sys2Proof.Machine.execReady link credit0 credit1 credit2 credit3 s
  | .credit link lane count => Sys2Proof.Machine.execCredit link lane count s
  | .down link field => Sys2Proof.Machine.execDown link field s
  | .malformedMessage link => Sys2Proof.Machine.execMalformedMessage link s
  | .offerTimerExpiry link => Sys2Proof.Machine.execOfferTimerExpiry link s
  | .linkUpTimerExpiry link => Sys2Proof.Machine.execLinkUpTimerExpiry link s
  | .cellSent link upsets => Sys2Proof.Machine.execCellSent link upsets s
  | .underrunTimerExpiry link => Sys2Proof.Machine.execUnderrunTimerExpiry link s
  | .abortOrder link record => Sys2Proof.Machine.execAbortOrder link record s
  | .holdoffTimerExpiry ring => Sys2Proof.Machine.execHoldoffTimerExpiry ring s
  | .correctionReport memory => Sys2Proof.Machine.execCorrectionReport memory s
  | .cellDataErrorReport link cell => Sys2Proof.Machine.execCellDataErrorReport link cell s
  | .fatalReport cause => Sys2Proof.Machine.execFatalReport cause s
  | .selfResetCompletion => Sys2Proof.Machine.execSelfResetCompletion s
  | .functionResetCompletion => Sys2Proof.Machine.execFunctionResetCompletion s
  | .flushEnd flow => Sys2Proof.Machine.execFlushEnd flow s
  | .deletionEnd ring => Sys2Proof.Machine.execDeletionEnd ring s
  | .drainEnd link => Sys2Proof.Machine.execDrainEnd link s
  | .activationApply link => Sys2Proof.Machine.execActivationApply link s

end Sys2Proof.Machine
end

