-- ==== Sys2Proof/Safety.lean ====
section
/-! DEFINITION. What counts as a sound state and a safe step, in the terms the statements use: the laws the spec says the part keeps, and the condition under which the AP takes a command. -/

namespace Sys2Proof.Machine

open Sys2Proof

/-- The AP takes the command its read returned: the device RUNNING, the AP READING, its read outstanding and its response
not cut off (R137, R178). -/
def State.commandArrives (s : State) : Prop :=
  s.hp.device = .running ∧ s.ap.state = .reading ∧ awaitsResponse s 8 = true

/-- The state in which a command is decided: the AP's read ended, the AP IDLE, the ASR head advanced by one (R137). -/
def State.atDecision (s : State) : State :=
  (s.setRead 8 none).onAp fun b => { b with state := .idle, asrHead := (b.asrHead + 1) % s.hp.asrSize.toNat }

/-- The end of the event that took a command: its admin completion written, and the next read started if R136 allows it
(R141, R137). -/
def State.answered (s : State) (tag : BitVec 16) (kind : Nat) (status : AdminStatus) (result : Nat) : State :=
  startCommandRead (adminComplete tag kind status result s)

/-- An outstanding list with the entry `e` of an operation between `before` and `after`, and no earlier entry of it. -/
def State.owes (s : State) (e : Outstanding) (before after : List Outstanding) : Prop :=
  s.ap.outstanding = before ++ e :: after ∧ ∀ x ∈ before, x.operation ≠ e.operation

/-- No entry, byte or record of the protected memories shows an error. -/
def State.eccClean (s : State) : Prop := s.bm.cellEcc = [] ∧ s.bm.linkEcc = [] ∧ s.bm.frameEcc = []

/-- A ring meets every condition for a new descriptor read (the table of R47). -/
def State.claims (s : State) (n : Nat) : Prop :=
  let c := s.sq n
  let q := s.cq c.cq
  c.state = .active ∧ 0 < (c.producer + c.size - c.head) % c.size ∧ c.reading = false ∧ c.held = none ∧
    c.inFlight < c.limit ∧ 1 ≤ q.size - 1 - (q.tail + q.size - q.consumer) % q.size - q.reserved

/-- A descriptor passes checks 1 to 5 of R52. -/
def State.accepts (s : State) (d : Descriptor) : Prop :=
  d.kind = 1 ∧ d.flow ≤ 127 ∧ (s.flow d.flow).state ≠ .unconfigured ∧ 1 ≤ d.length ∧ d.length ≤ 16384 ∧
    1 ≤ d.segmentCount ∧ d.segmentCount ≤ 4 ∧ (∀ g ∈ d.segments.take d.segmentCount, g.length ≠ 0) ∧
    ((d.segments.take d.segmentCount).map Segment.length).sum = d.length ∧
    (d.length + 255) / 256 ≤ (s.flow d.flow).cap

/-- Admission checks 2 to 4 of R12 fail: the answer is NO_ROOM. -/
def State.noRoom (s : State) (flow need : Nat) : Prop :=
  (s.flow flow).cap < (s.flow flow).held + need ∨ s.bm.freeCount < need ∨ s.bm.freeRecords = []

/-- What follows a frame's end on a link, the serializer now idle (R109, R110): on an ACTIVE link the ES considers it; on a
DRAINING one the drain ends, with DOWN, the credit 0, the link DISABLED, and the DISABLE_LINK completed OK (R79). That
these follow the admin completions of the frame's retirement is the model's choice (log entry 34). -/
def State.frameEndLeads (v : State) (l : Nat) (t : State) : Prop :=
  ((v.link l).state = .active → t = consider l v) ∧
  ((v.link l).state = .draining → (v.link l).outstanding = some .disable →
    ∀ tag before after, v.owes { operation := .disableLink l, tag := tag } before after →
      t = adminComplete tag 0x21 .ok 0 (((v.send l (.down l)).setLink l { v.link l with
        state := .disabled, announced := [], available := [], outstanding := none }).onAp fun b =>
          { b with outstanding := before ++ after }))

/-- A flow has a head that a link may send (R88); a head found uncorrectable is passed over (R18; log entry
7). -/
def State.mayGrant (s : State) (l f : Nat) : Prop :=
  (s.flow f).link = l ∧ (s.link l).state = .active ∧ ((s.flow f).state = .enabled ∨ (s.flow f).state = .disabled) ∧
    ∃ r rest, (s.flow f).queue = r :: rest ∧
      ((s.frame r).state = .ready ∨ ((s.frame r).state = .filling ∧ 0 < (s.flow f).threshold ∧
        (s.flow f).threshold ≤ (s.frame r).filled)) ∧
      (s.frame r).cellCount ≤ s.available l (tableGet laneUnlisted (s.sched l).classMap (s.flow f).cls) ∧
      r ∉ s.es.stopped

/-- The part after a grant of the record `r` of the flow `f` to a link, with the scheduler fields `h` (R104, R105). -/
def State.granted (s : State) (l f r : Nat) (h : Scheduler) : State :=
  let x := s.frame r
  let lane := tableGet laneUnlisted (s.sched l).classMap (s.flow f).cls
  (((s.setSched l h).setFrame r { x with state := .sending, cutThrough := decide (x.state = .filling) }).setLink l
    { s.link l with
      available := tableSet creditUnlisted (s.link l).available lane (s.available l lane - x.cellCount),
      serializer := some
        { state := .transmitting, record := r, lane := lane, cellCount := x.cellCount, sent := 0, filled := x.filled,
          nextCell := x.firstCell, timer := none, stopped := false, lost := false } }).send l
    (.header lane (s.flow f).cls f x.length x.cellCount)

/-- The canonical form of the cell data memory (log entry 28). -/
def State.memoryForm (s : State) : Prop := Memory.wf s.bm.cells = true

/-- "For every lane, available credit is never greater than the credit announced in the partner's last READY, and it is
zero whenever the link is DISABLED, AWAIT_PARTNER or FAILED" (R71). -/
def State.creditLaw (s : State) : Prop :=
  ∀ l lane, s.available l lane ≤ s.announced l lane ∧
    ((s.link l).state = .disabled ∨ (s.link l).state = .awaitPartner ∨ (s.link l).state = .failed →
      s.available l lane = 0 ∧ s.announced l lane = 0)

/-- A link on which frames run (R67). -/
def State.carries (s : State) (l : Nat) : Prop := (s.link l).state = .active ∨ (s.link l).state = .draining

/-- A busy serializer stands on an ACTIVE or a DRAINING link (R67, R69), but for a stopped one whose frame a failure has
cut short (R18; log entry 9). -/
def State.serializerLaw (s : State) : Prop :=
  ∀ l z, (s.link l).serializer = some z → if z.lost then z.stopped = true else s.carries l

/-- A part of a frame on a link: its header, a cell or its end marker (R69). -/
def LinkMessage.framePart : LinkMessage → Prop
  | .header .. | .cell _ | .endMarker _ => True
  | .offer _ | .down _ => False

/-- "The backlog never holds two entries of the same kind", and each entry's count is from 1 to 65535 (R167). -/
def State.backlogLaw (s : State) : Prop :=
  (s.ec.backlog.map fun e => e.notice.kind).Nodup ∧ ∀ e ∈ s.ec.backlog, 1 ≤ e.count ∧ e.count ≤ 65535

/-- "A record is on the free record list exactly when its state is FREE", and the list "holds no duplicates" (R8, R9). The
records are 0 to 2047; a number beyond them never leaves FREE. -/
def State.recordLaw (s : State) : Prop :=
  s.bm.freeRecords.Nodup ∧ (∀ r, r ∈ s.bm.freeRecords ↔ r < 2048 ∧ (s.frame r).state = .free) ∧
    ∀ r, 2048 ≤ r → (s.frame r).state = .free

/-- The records not in state FREE. -/
def State.inUse (s : State) : List Nat := (List.range 2048).filter fun r => decide ((s.frame r).state ≠ .free)

/-- The free cell list as its head, its count and the link table give it (R3). -/
def State.freeCells (s : State) : List Nat :=
  match s.bm.freeHead with
  | none => []
  | some c => chainFrom s s.bm.freeCount c

/-- The cell chain of a record (R2). -/
def State.chain (s : State) (r : Nat) : List Nat := chainFrom s (s.frame r).cellCount (s.frame r).firstCell

/-- The law of the cell pool (R2, R3, R4): the free list and the chain of each record in use run through the link table
to their tails, whose entries hold END; "each cell number is either on the free cell list or in the chain of exactly one
frame record not in state FREE"; the count of free cells plus the cell counts of the records in use is 8192. A held
copy's cell need is that of its length, from 1 on (R39), so that its admission takes cells. -/
def State.poolLaw (s : State) : Prop :=
  s.freeCells.length = s.bm.freeCount ∧ s.freeCells.getLast? = s.bm.freeTail ∧
  (∀ c, s.bm.freeTail = some c → s.linkEntry c = none) ∧
  (∀ r ∈ s.inUse, 1 ≤ (s.frame r).cellCount ∧ (s.chain r).length = (s.frame r).cellCount ∧
    (s.chain r).getLast? = some (s.frame r).lastCell ∧ s.linkEntry (s.frame r).lastCell = none) ∧
  (s.freeCells ++ (s.inUse.map s.chain).flatten).Perm (List.range 8192) ∧
  s.bm.freeCount + (s.inUse.map fun r => (s.frame r).cellCount).sum = 8192 ∧
  ∀ n h, (s.sq n).held = some h → 1 ≤ h.descriptor.length ∧ h.need = (h.descriptor.length + 255) / 256

/-- The law of the flow queues (R22, R24): a record is in the queue of its flow, once, exactly when it is FILLING, READY or
SENDING; a SENDING record is the head; cells held is the sum of the cell counts of the flow's records in use, at most
the flow's cap, and 0 in a flow never configured. -/
def State.queueLaw (s : State) : Prop :=
  ∀ f, (s.flow f).queue.Nodup ∧
    (∀ r, r ∈ (s.flow f).queue ↔ (s.frame r).flow = f ∧
      ((s.frame r).state = .filling ∨ (s.frame r).state = .ready ∨ (s.frame r).state = .sending)) ∧
    (∀ r ∈ (s.flow f).queue, (s.frame r).state = .sending → (s.flow f).queue.head? = some r) ∧
    (s.flow f).held = ((s.inUse.filter fun r => decide ((s.frame r).flow = f)).map fun r => (s.frame r).cellCount).sum ∧
    (s.flow f).held ≤ (s.flow f).cap ∧ ((s.flow f).state = .unconfigured → (s.flow f).held = 0)

/-- "A submission ring's in-flight count never exceeds its in-flight limit" (R48). -/
def State.limitLaw (s : State) : Prop := ∀ n, (s.sq n).inFlight ≤ (s.sq n).limit

/-- What the counts of descriptors count. In RUNNING a ring's in-flight count is its descriptor being read, its held
descriptor and its admitted frames (R39, R61), with at most one of the first two (R47); a ring reads exactly where one
fetch slot is in DESC_READ for it (R43); an ABSENT ring has none in flight; every other ring's completion ring is ACTIVE
(R115); a completion ring's reserved count is that of the descriptors in flight of the rings bound to it (R121). In
STOPPED the rings have their reset values. -/
def State.descriptorLaw (s : State) : Prop :=
  (s.hp.device = .stopped → s.dfu = DfuBlock.reset ∧ s.cu = CuBlock.reset ∧ s.bm.frames = []) ∧
  (s.hp.device = .running →
    (∀ n, (s.sq n).inFlight = (if (s.sq n).reading then 1 else 0) + (if (s.sq n).held.isSome then 1 else 0) +
      (s.inUse.filter fun r => decide ((s.frame r).ring = n)).length) ∧
    (∀ n, (s.sq n).reading = true → (s.sq n).held = none) ∧
    (∀ n, (s.sq n).reading = true ↔ ∃ i k, s.slot i = .descRead n k) ∧
    (∀ i j n k m, s.slot i = .descRead n k → s.slot j = .descRead n m → i = j) ∧
    (∀ n, (s.sq n).state = .absent → (s.sq n).inFlight = 0) ∧ (∀ n, 32 ≤ n → (s.sq n).state = .absent) ∧
    (∀ n, (s.sq n).state ≠ .absent → (s.cq (s.sq n).cq).state = .active) ∧
    ∀ c, (s.cq c).reserved = (((List.range 32).filter fun n =>
      decide ((s.sq n).state ≠ .absent ∧ (s.sq n).cq = c)).map fun n => (s.sq n).inFlight).sum)

/-- "For every ACTIVE completion ring, reserved slots plus records written and not yet consumed never exceed the ring size
minus one" (R120); its tail and its consumer index name slots of it (R118). -/
def State.completionRingLaw (s : State) : Prop :=
  ∀ n, (s.cq n).state = .active → (s.cq n).tail < (s.cq n).size ∧ (s.cq n).consumer < (s.cq n).size ∧
    (s.cq n).reserved + ((s.cq n).tail + (s.cq n).size - (s.cq n).consumer) % (s.cq n).size ≤ (s.cq n).size - 1

/-- The AP as a function reset leaves the admin completion ring: nothing promised and nothing written (R133). -/
def State.acrEmpty (s : State) : Prop :=
  s.ap.outstanding = [] ∧ s.ap.state ≠ .reading ∧ s.ap.acrTail = 0 ∧ s.ap.acrConsumer = 0

/-- "The reserved count plus the admin completions written and not yet consumed never exceed the ACR size minus one"
(R136), once anything has been promised or written; in STOPPED, where the size may still change, nothing has. -/
def State.acrLaw (s : State) : Prop :=
  let size := s.hp.acrSize.toNat
  (s.hp.device = .stopped → s.acrEmpty) ∧
  (s.acrEmpty ∨ (s.ap.acrTail < size ∧ s.ap.acrConsumer < size ∧
    (s.ap.acrTail + size - s.ap.acrConsumer) % size + s.ap.outstanding.length +
      (if s.ap.state = .reading then 1 else 0) ≤ size - 1))

/-- A step is safe where it answers a next state. -/
def safeStep (s : State) : Prop := ∃ t, step s = .next t

end Sys2Proof.Machine
end

