-- ==== Sys2Proof/Certificates/Slice0/Obligations.lean ====
section
/-! DEFINITION. The statements for the provers, chapter by chapter of the spec. A next state is written as the state before with the changes the rules give; whatever a change does not name is unchanged. -/

open Sys2Proof Sys2Proof.Machine Host

/-! ### The queue of commands -/

/-- A step carries out the front command with the queue's rest. On an empty queue the part idles, which is the model's
choice (log entry 2). -/
def Obligations.StepRunsFrontCommand : Prop :=
  (∀ (c : Instr) (s : State), step { s with pending := c :: s.pending } = exec c s) ∧
  ∀ s : State, s.pending = [] → step s = .next s

/-- Every command answers a next state and leaves the commands that wait behind it. That no command ends in a fault or a
refusal is read from the spec (R158 to R163; log entry 26, DEDUCED), and the queue of waiting commands is the model's
(log entry 25). -/
def Obligations.CommandsAnswerAndKeepQueue : Prop :=
  ∀ (c : Instr) (s : State), ∃ t, exec c s = .next t ∧ t.pending = s.pending

/-! ### Reset and the register window (chapters 10 and 11) -/

/-- POWER_ON: the HP as R171 gives it, nothing sent, and every other block at its reset value. The records of what was
sent start empty, which is the model's choice (log entry 12). -/
def Obligations.PowerOnGivesResetState : Prop :=
  ∀ s : State, ∃ t, exec .powerOn s = .next t ∧ t.hp.device = .stopped ∧ (∀ i < 9, t.read i = none) ∧
    t.hp.run = false ∧ t.hp.mode = .halt ∧ t.hp.configError = false ∧ t.hp.latch = false ∧
    t.hp.asrBase = 0 ∧ t.hp.asrSize = 0 ∧ t.hp.acrBase = 0 ∧ t.hp.acrSize = 0 ∧ t.hp.nrBase = 0 ∧ t.hp.nrSize = 0 ∧
    t.readRegister 0x000 = 0 ∧ t.readRegister 0x004 = 0 ∧ t.hp.out = [] ∧ t.lu.out = [] ∧
    t = { State.reset with pending := s.pending }

/-- The reset value of every table of the datapath (R1, R2, R3, R7, R8, R21, R39, R43, R44, R47, R66, R81, R86, R118),
of the AP (R133) and of the EC (R154). The lists of reports, orders and refused steps on their way are the model's (log
entries 5, 7 and 11). -/
def Obligations.ResetValuesOfBlocks : Prop :=
  (∀ c < 8192, ∀ o < 256, State.reset.cellByte c o = 0) ∧ State.reset.eccClean ∧
  (∀ c < 8191, State.reset.linkEntry c = some (c + 1)) ∧ State.reset.linkEntry 8191 = none ∧
  State.reset.bm.freeHead = some 0 ∧ State.reset.bm.freeTail = some 8191 ∧ State.reset.bm.freeCount = 8192 ∧
  State.reset.bm.freeRecords = List.range 2048 ∧
  (∀ r < 2048, State.reset.frame r =
    { state := .free, ring := 0, tag := 0, flow := 0, length := 0, cellCount := 0, firstCell := 0, lastCell := 0,
      filled := 0, fillCell := 0, fillOffset := 0, sent := 0, fetchEnded := false, linkEnded := false,
      cutThrough := false, cause := none }) ∧
  (∀ f < 128, State.reset.flow f =
    { state := .unconfigured, link := 0, cls := 0, cap := 8192, policy := .hold, threshold := 0, held := 0, sent := 0,
      flushed := 0, queue := [] }) ∧
  (∀ n < 32, State.reset.sq n =
    { state := .absent, base := 0, size := 0, cq := 0, limit := 0, inFlight := 0, head := 0, producer := 0,
      reading := false, held := none }) ∧
  (∀ i < 8, State.reset.slot i = .idle) ∧ State.reset.dfu.held = [] ∧ State.reset.dfu.lastRing = 31 ∧
  (∀ l < 4, State.reset.link l =
    { state := .disabled, cause := none, announced := [], available := [], serializer := none, offerTimer := none,
      linkUpTimer := none, outstanding := none }) ∧
  (∀ l < 4, ∀ lane < 4, State.reset.available l lane = 0 ∧ State.reset.announced l lane = 0) ∧
  (∀ l < 4, (State.reset.sched l).mask = 0 ∧ (State.reset.sched l).expedited = 127 ∧
    (State.reset.sched l).pointer = 0 ∧ (State.reset.sched l).activation = false ∧
    (∀ c < 8, tableGet laneUnlisted (State.reset.sched l).classMap c = 0) ∧
    ∀ p < 64, tableGet calendarUnlisted (State.reset.sched l).active p = none ∧
      tableGet calendarUnlisted (State.reset.sched l).shadow p = none) ∧
  (∀ n < 16, State.reset.cq n =
    { state := .absent, base := 0, size := 0, vector := 0, threshold := 0, holdoff := 0, tail := 0, consumer := 0,
      phase := true, reserved := 0, pending := 0, timer := none }) ∧
  State.reset.ap.state = .idle ∧ State.reset.ap.asrHead = 0 ∧ State.reset.ap.asrProducer = 0 ∧
  State.reset.ap.acrTail = 0 ∧ State.reset.ap.acrConsumer = 0 ∧ State.reset.ap.acrPhase = true ∧
  State.reset.ap.outstanding = [] ∧ State.reset.hp.latch = false ∧
  State.reset.ec.cellDataCount = 0 ∧ State.reset.ec.linkTableCount = 0 ∧ State.reset.ec.frameTableCount = 0 ∧
  State.reset.ec.threshold = 256 ∧ State.reset.ec.fatalCause = none ∧ State.reset.ec.multiple = false ∧
  State.reset.ec.nrTail = 0 ∧ State.reset.ec.nrConsumer = 0 ∧ State.reset.ec.nrPhase = true ∧
  State.reset.ec.backlog = [] ∧ State.reset.ec.reports = [] ∧ State.reset.bm.fetchEnds = [] ∧
  State.reset.lu.aborts = [] ∧ State.reset.es.stopped = []

/-- A CONTROL write, field by field and state by state (R172). The start that RUN = 1 brings in STOPPED and the reset
that FUNCTION_RESET = 1 brings have statements of their own. The field positions are those of section 11.9, and a mode
field of 3 leaves the mode (R185). A word whose RUN and FUNCTION_RESET bits name another CONTROL row is taken for the
write it is (log entry 22). -/
def Obligations.ControlWriteFields : Prop :=
  ∀ (w : Word32) (s : State),
    (s.hp.device = .resetting →
      exec (.functionReset w) s = .next s ∧ exec (.run w) s = .next s ∧ exec (.containmentModeWrite w) s = .next s) ∧
    (w.getLsbD 1 = false →
      (s.hp.device = .selfResetting → exec (.run w) s = .next s ∧ exec (.containmentModeWrite w) s = .next s) ∧
      (∀ m : ContainmentMode, w.toNat / 16 % 4 = m.code →
        (s.hp.device = .running ∨ s.hp.device = .failed →
          exec (.run w) s = .next (s.onHp fun b => { b with mode := m }) ∧
          exec (.containmentModeWrite w) s = .next (s.onHp fun b => { b with mode := m })) ∧
        (s.hp.device = .stopped → w.getLsbD 0 = false →
          exec (.containmentModeWrite w) s = .next (s.onHp fun b => { b with mode := m }))) ∧
      (w.toNat / 16 % 4 = 3 →
        (s.hp.device = .running ∨ s.hp.device = .failed →
          exec (.run w) s = .next s ∧ exec (.containmentModeWrite w) s = .next s) ∧
        (s.hp.device = .stopped → w.getLsbD 0 = false → exec (.containmentModeWrite w) s = .next s)))

/-- RUN = 1 in STOPPED (R173): with three valid sizes the device runs, the mode written first, the backlog drained and the
first command read started as R136 allows; with an invalid size only the mode and CONFIG_ERROR change. `m` is the mode
after the write: the one the field names, or, where the field holds 3, the stored one (R185). -/
def Obligations.RunStartsDevice : Prop :=
  ∀ (w : Word32) (m : ContainmentMode) (s : State), s.hp.device = .stopped → w.getLsbD 1 = false →
    w.getLsbD 0 = true → w.toNat / 16 % 4 = m.code ∨ (w.toNat / 16 % 4 = 3 ∧ m = s.hp.mode) →
    ((s.hp.asrSize.toNat ∈ [16, 32, 64, 128, 256] ∧ s.hp.acrSize.toNat ∈ [16, 32, 64, 128, 256] ∧
        s.hp.nrSize.toNat ∈ [16, 32, 64, 128, 256] →
      (∃ t, exec (.run w) s = .next t ∧ t.hp.device = .running ∧ t.hp.run = true ∧ t.hp.configError = false ∧
        t.hp.mode = m ∧ t.bm = s.bm ∧ t.dfu = s.dfu ∧ t.lu = s.lu ∧ t.es = s.es ∧ t.cu = s.cu ∧
        t.ap.outstanding = s.ap.outstanding ∧ t.ap.asrHead = s.ap.asrHead) ∧
      exec (.run w) s = .next (startCommandRead (drainBacklog (s.onHp fun b =>
        { b with device := .running, run := true, configError := false, mode := m }))) ∧
      (s.ec.backlog = [] → s.ap.asrProducer = s.ap.asrHead →
        exec (.run w) s = .next (s.onHp fun b =>
          { b with device := .running, run := true, configError := false, mode := m }))) ∧
    (¬ (s.hp.asrSize.toNat ∈ [16, 32, 64, 128, 256] ∧ s.hp.acrSize.toNat ∈ [16, 32, 64, 128, 256] ∧
        s.hp.nrSize.toNat ∈ [16, 32, 64, 128, 256]) →
      exec (.run w) s = .next (s.onHp fun b => { b with mode := m, configError := true })))

/-- Register writes (R175, R185, section 11.9). A system ring register: in STOPPED a base's low half loses its low 6, 5
or 4 bits and the other half stands; in any other state nothing changes. A write of fewer than four bytes, or to an
offset without a writable register, STATUS among them, changes nothing; so does one of more than four bytes, by the
model's choice (log entry 23). Register reads (R172, R175, R176, R185): CONTROL, STATUS, the six system ring registers,
and each index port as its owner holds it, 0 for an ABSENT ring; every other offset reads 0. Reads have no row of the
table (log entry 27). -/
def Obligations.RegistersWrittenAndRead : Prop :=
  (∀ (v : Word32) (s : State),
    (s.hp.device = .stopped →
      exec (.systemRingRegisterWrite .asrBaseLow v) s = .next (s.onHp fun b => { b with
        asrBase := BitVec.ofNat 64 (b.asrBase.toNat / 2 ^ 32 * 2 ^ 32 + v.toNat / 64 * 64) }) ∧
      exec (.systemRingRegisterWrite .asrBaseHigh v) s = .next (s.onHp fun b => { b with
        asrBase := BitVec.ofNat 64 (v.toNat * 2 ^ 32 + b.asrBase.toNat % 2 ^ 32) }) ∧
      exec (.systemRingRegisterWrite .asrSize v) s = .next (s.onHp fun b => { b with asrSize := v }) ∧
      exec (.systemRingRegisterWrite .acrBaseLow v) s = .next (s.onHp fun b => { b with
        acrBase := BitVec.ofNat 64 (b.acrBase.toNat / 2 ^ 32 * 2 ^ 32 + v.toNat / 32 * 32) }) ∧
      exec (.systemRingRegisterWrite .acrBaseHigh v) s = .next (s.onHp fun b => { b with
        acrBase := BitVec.ofNat 64 (v.toNat * 2 ^ 32 + b.acrBase.toNat % 2 ^ 32) }) ∧
      exec (.systemRingRegisterWrite .acrSize v) s = .next (s.onHp fun b => { b with acrSize := v }) ∧
      exec (.systemRingRegisterWrite .nrBaseLow v) s = .next (s.onHp fun b => { b with
        nrBase := BitVec.ofNat 64 (b.nrBase.toNat / 2 ^ 32 * 2 ^ 32 + v.toNat / 16 * 16) }) ∧
      exec (.systemRingRegisterWrite .nrBaseHigh v) s = .next (s.onHp fun b => { b with
        nrBase := BitVec.ofNat 64 (v.toNat * 2 ^ 32 + b.nrBase.toNat % 2 ^ 32) }) ∧
      exec (.systemRingRegisterWrite .nrSize v) s = .next (s.onHp fun b => { b with nrSize := v })) ∧
    (s.hp.device ≠ .stopped → ∀ r, exec (.systemRingRegisterWrite r v) s = .next s)) ∧
  (∀ (offset width : Nat) (v : Word32) (s : State),
     width ≠ 4 ∨ (offset ≠ 0x000 ∧ offset ∉ [0x010, 0x014, 0x018, 0x020, 0x024, 0x028, 0x030, 0x034, 0x038] ∧
       ∀ n < 51, offset ≠ 0x100 + 4 * n) →
     exec (.registerWrite offset width v) s = .next s) ∧
  ∀ s : State,
    let device : Nat := match s.hp.device with
      | .stopped => 0 | .running => 1 | .failed => 2 | .selfResetting => 3 | .resetting => 4
    let mode : Nat := match s.hp.mode with | .halt => 0 | .haltLinksDown => 1 | .selfReset => 2
    let cause : Nat := match s.ec.fatalCause with
      | none => 0 | some .linkTableUncorrectable => 1 | some .frameTableUncorrectable => 2
    let flag := fun b : Bool => if b then 1 else 0
    s.readRegister 0x000 =
      BitVec.ofNat 32 (flag s.hp.run + (if s.hp.device = .resetting then 2 else 0) + 16 * mode) ∧
    s.readRegister 0x004 =
      BitVec.ofNat 32 (device + 16 * cause + 256 * flag s.ec.multiple + 512 * flag s.hp.configError) ∧
    s.readRegister 0x010 = BitVec.ofNat 32 s.hp.asrBase.toNat ∧
    s.readRegister 0x014 = BitVec.ofNat 32 (s.hp.asrBase.toNat / 2 ^ 32) ∧ s.readRegister 0x018 = s.hp.asrSize ∧
    s.readRegister 0x020 = BitVec.ofNat 32 s.hp.acrBase.toNat ∧
    s.readRegister 0x024 = BitVec.ofNat 32 (s.hp.acrBase.toNat / 2 ^ 32) ∧ s.readRegister 0x028 = s.hp.acrSize ∧
    s.readRegister 0x030 = BitVec.ofNat 32 s.hp.nrBase.toNat ∧
    s.readRegister 0x034 = BitVec.ofNat 32 (s.hp.nrBase.toNat / 2 ^ 32) ∧ s.readRegister 0x038 = s.hp.nrSize ∧
    (∀ n < 32, s.readRegister (0x100 + 4 * n) =
      if (s.sq n).state = .absent then 0 else BitVec.ofNat 32 (s.sq n).producer) ∧
    s.readRegister 0x180 = BitVec.ofNat 32 s.ap.asrProducer ∧
    (∀ n < 16, s.readRegister (0x184 + 4 * n) =
      if (s.cq n).state = .absent then 0 else BitVec.ofNat 32 (s.cq n).consumer) ∧
    s.readRegister 0x1C4 = BitVec.ofNat 32 s.ap.acrConsumer ∧
    s.readRegister 0x1C8 = BitVec.ofNat 32 s.ec.nrConsumer ∧
    ∀ offset ∉ [0x000, 0x004, 0x010, 0x014, 0x018, 0x020, 0x024, 0x028, 0x030, 0x034, 0x038],
      (∀ n < 51, offset ≠ 0x100 + 4 * n) → s.readRegister offset = 0

/-- Entry into RESETTING, by a FUNCTION_RESET write or a host-link reset in any state but RESETTING (R174, R178,
R85, R132). With a read outstanding the device waits in RESETTING; with none the reset completes in the same
event. That the reports between blocks are dropped at the entry and what was sent stays sent is the model's form
(log entries 11 and 12), and that an entry from SELF_RESETTING sends DOWN again on every link not DISABLED is read
from R85 and R174 (log entry 24, DEDUCED). In RESETTING a host-link reset changes nothing; that it cuts off no
response there is read from R174 (log entry 15, DEDUCED). The order of the messages of different links is the
model's choice (log entry 36). -/
def Obligations.FunctionResetEntry : Prop :=
  (∀ s : State, s.hp.device = .resetting → exec .hostLinkReset s = .next s) ∧
  ∀ (w : Word32) (s : State), s.hp.device ≠ .resetting → w.getLsbD 1 = true →
    let downs := if s.hp.device = .failed then [] else
      ([0, 1, 2, 3].filter fun l => (s.link l).state ≠ .disabled).map fun l => (l, LinkMessage.down l)
    ((∀ i < 9, s.read i = none) →
      let t := { State.reset with
        hp := { HpBlock.reset with out := s.hp.out }, lu := { LuBlock.reset with out := s.lu.out ++ downs },
        pending := s.pending }
      exec (.functionReset w) s = .next t ∧ exec .hostLinkReset s = .next t) ∧
    ((∃ i < 9, s.read i ≠ none) →
      ∃ t u, exec (.functionReset w) s = .next t ∧ exec .hostLinkReset s = .next u ∧
        (∀ i < 9, t.read i = s.read i ∧ u.read i = (s.read i).map fun r => { r with cutOff := true }) ∧
        ∀ v ∈ [t, u], v.hp.device = .resetting ∧ v.hp.run = false ∧ v.hp.mode = s.hp.mode ∧
          v.hp.latch = s.hp.latch ∧ v.hp.out = s.hp.out ∧ v.readRegister 0x000 = BitVec.ofNat 32 (2 + 16 * s.hp.mode.code) ∧
          v.dfu = s.dfu ∧ v.ap = s.ap ∧ v.ec = s.ec ∧ v.bm = { s.bm with fetchEnds := [] } ∧
          v.es.schedulers = s.es.schedulers ∧ v.lu.out = s.lu.out ++ downs ∧
          (∀ l < 4, v.link l = { s.link l with serializer := none, offerTimer := none, linkUpTimer := none }) ∧
          ∀ n < 16, v.cq n = { s.cq n with timer := none })

/-! ### Index ports (R41, R125, R135, R146, R168, R176) -/

/-- Ports 0 to 31: the producer index of a ring that is not ABSENT, below its size, is stored; any other value is ignored
and raises INDEX_ERROR with the port and the value. -/
def Obligations.SqProducerIndexStored : Prop :=
  ∀ (n : Fin 32) (v : Word32) (s : State), s.hp.device = .running ∨ s.hp.device = .stopped →
    ((s.sq n).state ≠ .absent → v.toNat < (s.sq n).size →
      exec (.sqProducerIndexWrite n v) s = .next (s.setSq n { s.sq n with producer := v.toNat })) ∧
    ((s.sq n).state = .absent ∨ (s.sq n).size ≤ v.toNat →
      exec (.sqProducerIndexWrite n v) s = .next (raiseNotice (.indexError n v) s))

/-- Ports 33 to 48 (R125): the value is accepted where it lies in the cyclic range from the consumer index to the tail,
both included, and stored; every other value is ignored with INDEX_ERROR. -/
def Obligations.CqConsumerIndexStored : Prop :=
  ∀ (n : Fin 16) (v : Word32) (s : State), s.hp.device = .running ∨ s.hp.device = .stopped →
    ((s.cq n).state = .active → v.toNat < (s.cq n).size → (s.cq n).consumer < (s.cq n).size →
      (s.cq n).tail < (s.cq n).size →
      ((∃ k ≤ ((s.cq n).tail + (s.cq n).size - (s.cq n).consumer) % (s.cq n).size,
          v.toNat = ((s.cq n).consumer + k) % (s.cq n).size) →
        exec (.cqConsumerIndexWrite n v) s = .next (s.setCq n { s.cq n with consumer := v.toNat })) ∧
      ((¬ ∃ k ≤ ((s.cq n).tail + (s.cq n).size - (s.cq n).consumer) % (s.cq n).size,
          v.toNat = ((s.cq n).consumer + k) % (s.cq n).size) →
        exec (.cqConsumerIndexWrite n v) s = .next (raiseNotice (.indexError (33 + n) v) s))) ∧
    ((s.cq n).state = .absent ∨ (s.cq n).size ≤ v.toNat →
      exec (.cqConsumerIndexWrite n v) s = .next (raiseNotice (.indexError (33 + n) v) s))

/-- Ports 32 and 49 (R135, R146, R149, R176): in SELF_RESETTING an accepted value is kept and nothing more; in RUNNING
it may start a command read; a refused value raises INDEX_ERROR; a write to port 49 clears the vector-0 latch first. The
index writes the HP drops, by device state (R176): nothing is stored, no notice is raised, the latch is not touched. -/
def Obligations.IndexWritesTakenOrDropped : Prop :=
  (∀ (v : Word32) (s : State), s.hp.device = .running ∨ s.hp.device = .selfResetting →
     (v.toNat < s.hp.asrSize.toNat →
       let t := s.onAp fun b => { b with asrProducer := v.toNat }
       (s.hp.device = .selfResetting → exec (.asrProducerIndexWrite v) s = .next t) ∧
       (s.hp.device = .running → exec (.asrProducerIndexWrite v) s = .next (startCommandRead t))) ∧
     (s.hp.asrSize.toNat ≤ v.toNat →
       exec (.asrProducerIndexWrite v) s = .next (raiseNotice (.indexError 32 v) s)) ∧
     let c := s.onHp fun b => { b with latch := false }
     let near := (v.toNat + s.hp.acrSize.toNat - s.ap.acrConsumer) % s.hp.acrSize.toNat
       ≤ (s.ap.acrTail + s.hp.acrSize.toNat - s.ap.acrConsumer) % s.hp.acrSize.toNat
     (v.toNat < s.hp.acrSize.toNat → near →
       let t := c.onAp fun b => { b with acrConsumer := v.toNat }
       (s.hp.device = .selfResetting → exec (.acrConsumerIndexWrite v) s = .next t) ∧
       (s.hp.device = .running → exec (.acrConsumerIndexWrite v) s = .next (startCommandRead t))) ∧
     (s.hp.acrSize.toNat ≤ v.toNat ∨ ¬ near →
       exec (.acrConsumerIndexWrite v) s = .next (raiseNotice (.indexError 49 v) c))) ∧
  ∀ (v : Word32) (s : State),
    (s.hp.device = .failed ∨ s.hp.device = .selfResetting ∨ s.hp.device = .resetting →
      (∀ n, exec (.sqProducerIndexWrite n v) s = .next s) ∧ ∀ n, exec (.cqConsumerIndexWrite n v) s = .next s) ∧
    (s.hp.device = .stopped ∨ s.hp.device = .failed ∨ s.hp.device = .resetting →
      exec (.asrProducerIndexWrite v) s = .next s ∧ exec (.acrConsumerIndexWrite v) s = .next s) ∧
    (s.hp.device = .stopped ∨ s.hp.device = .resetting → exec (.nrConsumerIndexWrite v) s = .next s)

/-- Port 50 (R168, R149): the latch is cleared whether the value is accepted or not; an accepted value is stored and the
backlog drained; a refused one raises INDEX_ERROR. -/
def Obligations.NrConsumerIndexTaken : Prop :=
  ∀ (v : Word32) (s : State), s.hp.device = .running ∨ s.hp.device = .failed ∨ s.hp.device = .selfResetting →
    let c := s.onHp fun b => { b with latch := false }
    let near := (v.toNat + s.hp.nrSize.toNat - s.ec.nrConsumer) % s.hp.nrSize.toNat
      ≤ (s.ec.nrTail + s.hp.nrSize.toNat - s.ec.nrConsumer) % s.hp.nrSize.toNat
    (v.toNat < s.hp.nrSize.toNat → near →
      (∃ t, exec (.nrConsumerIndexWrite v) s = .next t ∧ t.ec.nrConsumer = v.toNat) ∧
      (s.ec.backlog = [] →
        exec (.nrConsumerIndexWrite v) s = .next (c.onEc fun b => { b with nrConsumer := v.toNat })) ∧
      exec (.nrConsumerIndexWrite v) s = .next (drainBacklog (c.onEc fun b => { b with nrConsumer := v.toNat }))) ∧
    (s.hp.nrSize.toNat ≤ v.toNat ∨ ¬ near →
      exec (.nrConsumerIndexWrite v) s = .next (raiseNotice (.indexError 50 v) c))

/-! ### Notices (chapter 9) -/

/-- Where a notice goes (R165, R169): into the ring where the backlog is empty and the ring has room, with one message
on vector 0 where the latch was clear; into the backlog otherwise, and always in STOPPED; nowhere in RESETTING. The
drain (R168, R169): entries leave the head of the backlog, oldest first, as many as the ring has room for, each
written with its own parameters and count at the next slot; the entries behind keep their order. That addresses are
sums without a bound is the model's choice (log entry 13). -/
def Obligations.NoticesPlacedAndDrained : Prop :=
  (∀ (n : Notice) (s : State),
     (s.hp.device = .resetting → raiseNotice n s = s) ∧
     (s.hp.device = .stopped → raiseNotice n s = s.onEc fun b => { b with backlog := mergeBacklog n b.backlog }) ∧
     (s.hp.device = .running ∨ s.hp.device = .failed ∨ s.hp.device = .selfResetting →
       let N := s.hp.nrSize.toNat
       let room := (s.ec.nrTail + N - s.ec.nrConsumer) % N < N - 1
       (s.ec.backlog = [] → room →
         raiseNotice n s = { s with
           hp := { s.hp with
             out := s.hp.out ++ [.write16 (s.hp.nrBase.toNat + 16 * s.ec.nrTail) (noticeRecord n 1 s.ec.nrPhase)]
               ++ (if s.hp.latch then [] else [.interrupt 0]),
             latch := true },
           ec := { s.ec with
             nrTail := (s.ec.nrTail + 1) % N,
             nrPhase := if s.ec.nrTail + 1 = N then !s.ec.nrPhase else s.ec.nrPhase } }) ∧
       (s.ec.backlog ≠ [] ∨ ¬ room →
         raiseNotice n s = s.onEc fun b => { b with backlog := mergeBacklog n b.backlog }))) ∧
  ∀ s : State, s.ec.nrConsumer < s.hp.nrSize.toNat → s.ec.nrTail < s.hp.nrSize.toNat →
    let N := s.hp.nrSize.toNat
    let k := min s.ec.backlog.length (N - 1 - (s.ec.nrTail + N - s.ec.nrConsumer) % N)
    (drainBacklog s).ec = { s.ec with
      nrTail := (s.ec.nrTail + k) % N,
      nrPhase := if N ≤ s.ec.nrTail + k then !s.ec.nrPhase else s.ec.nrPhase,
      backlog := s.ec.backlog.drop k } ∧
    ((drainBacklog s).hp.out.filter fun x => x ≠ .interrupt 0) =
      (s.hp.out.filter fun x => x ≠ .interrupt 0) ++ (List.range k).map fun j =>
        let e := s.ec.backlog.getD j { notice := .fatalError none, count := 0 }
        .write16 (s.hp.nrBase.toNat + 16 * ((s.ec.nrTail + j) % N))
          (noticeRecord e.notice e.count (if N ≤ s.ec.nrTail + j then !s.ec.nrPhase else s.ec.nrPhase))

/-- How a notice joins the backlog (R167): one whose kind has an entry raises that entry's count, up to 65535, and its own
parameters are dropped; any other joins at the tail with count 1; entries keep their order; no two are of one kind, and
with seven kinds there are at most seven; a count stays from 1 to 65535. -/
def Obligations.BacklogMergesByKind : Prop :=
  ∀ (n : Notice) (b : List BacklogEntry), (b.map fun e => e.notice.kind).Nodup →
    (∀ e ∈ b, e.notice.kind = n.kind →
      mergeBacklog n b = b.map fun x => if x = e then { e with count := if e.count < 65535 then e.count + 1 else e.count } else x) ∧
    ((∀ e ∈ b, e.notice.kind ≠ n.kind) → mergeBacklog n b = b ++ [{ notice := n, count := 1 }]) ∧
    ((mergeBacklog n b).map fun e => e.notice.kind).Nodup ∧ (mergeBacklog n b).length ≤ 7 ∧
    ((∀ e ∈ b, 1 ≤ e.count ∧ e.count ≤ 65535) → ∀ e ∈ mergeBacklog n b, 1 ≤ e.count ∧ e.count ≤ 65535)

/-- The records the part writes, field by field, reserved bytes 0 (R182, sections 11.3, 11.5, 11.6), the bytes of the
messages it sends to a partner (section 11.8; the byte order of the header's length is the model's choice, log entry 19),
and the numbers of the tables there: statuses, subcodes, admin statuses, flow and link states, link causes, notice kinds,
memories and fatal causes. -/
def Obligations.WrittenRecordLayouts : Prop :=
  (∀ (tag : BitVec 32) (head ring sent : Nat) (st : FrameStatus) (sub : Subcode) (cut phase : Bool),
    head < 4096 → ring < 32 → sent ≤ 64 →
    let r := completionRecord tag head ring st sub sent cut phase
    recordField r 0 4 = tag.toNat ∧ recordField r 4 2 = head ∧ recordField r 6 1 = ring ∧ recordField r 7 1 = st.code ∧
    recordField r 8 1 = sub.code ∧ recordField r 9 1 = sent ∧ recordField r 10 1 = bit cut ∧ recordField r 11 4 = 0 ∧
    recordField r 15 1 = bit phase) ∧
  (∀ (tag : BitVec 16) (kind head result : Nat) (st : AdminStatus) (phase : Bool),
    kind < 256 → head < 256 → result < 2 ^ 160 →
    let r := adminRecord tag kind st head result phase
    recordField r 0 2 = tag.toNat ∧ recordField r 2 1 = kind ∧ recordField r 3 1 = st.code ∧ recordField r 4 2 = head ∧
    recordField r 6 2 = 0 ∧ recordField r 8 20 = result ∧ recordField r 28 3 = 0 ∧ recordField r 31 1 = bit phase) ∧
  (∀ (n : Notice) (count : Nat) (phase : Bool), count ≤ 65535 →
     let r := noticeRecord n count phase
     recordField r 0 1 = n.kind ∧ recordField r 1 1 = 0 ∧ recordField r 2 2 = count ∧ recordField r 12 3 = 0 ∧
     recordField r 15 1 = bit phase ∧
     (∀ port value, n = .indexError port value → port ≤ 50 →
       recordField r 4 1 = port ∧ recordField r 5 3 = 0 ∧ recordField r 8 4 = value.toNat) ∧
     (∀ link cause, n = .linkFailed link cause → link < 4 →
       recordField r 4 1 = link ∧ recordField r 5 1 = cause.code ∧ recordField r 6 6 = 0) ∧
     (∀ link cell, n = .cellDataError link cell → link < 4 → cell < 8192 →
       recordField r 4 1 = link ∧ recordField r 5 1 = 0 ∧ recordField r 6 2 = cell ∧ recordField r 8 4 = 0) ∧
     (∀ ring slot, n = .ringError ring slot → ring ≤ 32 → slot < 4096 →
       recordField r 4 1 = ring ∧ recordField r 5 1 = 0 ∧ recordField r 6 2 = slot ∧ recordField r 8 4 = 0) ∧
     (∀ memory limit, n = .correctableLimit memory limit → limit ≤ 65535 →
       recordField r 4 1 = memory.code ∧ recordField r 5 3 = 0 ∧ recordField r 8 2 = limit ∧ recordField r 10 2 = 0) ∧
     (∀ cause, n = .fatalError cause ∨ n = .selfResetDone cause →
       recordField r 4 1 = fatalCode cause ∧ recordField r 5 7 = 0)) ∧
  (∀ link < 4, (LinkMessage.offer link).bytes.map BitVec.toNat = [1, link] ∧
    (LinkMessage.down link).bytes.map BitVec.toNat = [5, link]) ∧
  (∀ lane cls flow length cells : Nat, lane < 4 → cls < 8 → flow < 128 → 1 ≤ length → length ≤ 16384 → 1 ≤ cells →
    cells ≤ 64 → (LinkMessage.header lane cls flow length cells).bytes.map BitVec.toNat =
      [2, lane, cls, flow, cells, length % 256, length / 256]) ∧
  (∀ payload : List Byte, (LinkMessage.cell payload).bytes = 3 :: payload) ∧
  (∀ good : Bool, (LinkMessage.endMarker good).bytes = [4, if good = true then 0 else 1]) ∧
  ([FrameStatus.sent, .hostReadError, .fetchAborted, .underrun, .dataError, .linkLost, .flushed, .invalidDescriptor,
    .flowNotReady, .droppedNoBuffer, .ringDeleted].map FrameStatus.code = [0, 1, 2, 3, 4, 5, 6, 7, 8, 9, 10]) ∧
  ([Subcode.none, .badKind, .badFlow, .badLength, .badSegments, .exceedsCap].map Subcode.code = [0, 1, 2, 3, 4, 5]) ∧
  ([AdminStatus.ok, .busy, .badParameter, .badState, .notFound, .timeout, .aborted, .unknownCommand].map
    AdminStatus.code = [0, 1, 2, 3, 4, 5, 6, 7]) ∧
  ([FlowState.unconfigured, .disabled, .enabled, .flushing].map FlowState.code = [0, 1, 2, 3]) ∧
  ([LinkState.disabled, .awaitPartner, .active, .draining, .failed].map LinkState.code = [0, 1, 2, 3, 4]) ∧
  ([none, some LinkCause.partnerDown, some .creditOverflow, some .protocol, some .containment].map causeCode =
    [0, 1, 2, 3, 4]) ∧
  (∀ c : LinkCause, c.code = causeCode (some c)) ∧
  ([ProtectedMemory.cellData, .linkTable, .frameTable].map ProtectedMemory.code = [0, 1, 2]) ∧
  ([none, some FatalCause.linkTableUncorrectable, some .frameTableUncorrectable].map fatalCode = [0, 1, 2]) ∧
  ∀ (ring slot port link cell limit : Nat) (value : Word32) (cause : LinkCause) (memory : ProtectedMemory)
    (fatal : Option FatalCause),
    [Notice.ringError ring slot, .indexError port value, .linkFailed link cause, .cellDataError link cell,
      .correctableLimit memory limit, .fatalError fatal, .selfResetDone fatal].map Notice.kind = [1, 2, 3, 4, 5, 6, 7]

/-! ### The admin ring (chapter 8) and host reads -/

/-- An admin completion (R145, R149): one posted write of 32 bytes at the ACR tail with the ASR head of the moment,
the tail advanced, the phase inverted at the wrap, one message on vector 0 where the latch was clear, and the latch
set. The AP's command read (R136, R138, R177, R178). COMMAND_READ_START: where the device is RUNNING, the AP IDLE, a
command pending and an ACR slot free, the AP is READING and a 64-byte read at ASR base + 64 × head is issued with its
timer at 10 ms; otherwise nothing changes. A read that fails: the AP is in ERROR, the head stands, and RING_ERROR
names the admin ring and the slot; a timeout does the same, whether the response was cut off or not. That addresses
are sums without a bound is the model's choice (log entry 13). -/
def Obligations.AdminCompletionsAndCommandReads : Prop :=
  (∀ (tag : BitVec 16) (kind : Nat) (st : AdminStatus) (result : Nat) (s : State),
     let N := s.hp.acrSize.toNat
     adminComplete tag kind st result s = { s with
       hp := { s.hp with
         out := s.hp.out ++ [.write32 (s.hp.acrBase.toNat + 32 * s.ap.acrTail)
             (adminRecord tag kind st s.ap.asrHead result s.ap.acrPhase)]
           ++ (if s.hp.latch then [] else [.interrupt 0]),
         latch := true },
       ap := { s.ap with
         acrTail := (s.ap.acrTail + 1) % N,
         acrPhase := if s.ap.acrTail + 1 = N then !s.ap.acrPhase else s.ap.acrPhase } }) ∧
  (∀ s : State,
    let N := s.hp.asrSize.toNat
    let M := s.hp.acrSize.toNat
    let allowed := s.hp.device = .running ∧ s.ap.state = .idle ∧ 0 < (s.ap.asrProducer + N - s.ap.asrHead) % N ∧
      1 ≤ M - 1 - (s.ap.acrTail + M - s.ap.acrConsumer) % M - s.ap.outstanding.length
    let address := s.hp.asrBase.toNat + 64 * s.ap.asrHead
    exec .commandReadStart s = .next (startCommandRead s) ∧
    (allowed → startCommandRead s = (((s.onAp fun b => { b with state := .reading }).setRead 8
      (some { address := address, length := 64, timer := 10000, cutOff := false })).emit
        (.readRequest 8 address 64))) ∧
    (¬ allowed → startCommandRead s = s)) ∧
  ∀ s : State, s.hp.device = .running → s.ap.state = .reading →
    let t := raiseNotice (.ringError 32 s.ap.asrHead)
      ((s.setRead 8 none).onAp fun b => { b with state := .error })
    (awaitsResponse s 8 = true → exec .commandReadError s = .next t) ∧
    ((s.read 8).isSome = true → exec (.hostReadTimeout 8) s = .next t)

/-- A response for which no entry is outstanding is discarded (R178); that HOST_READ_TIMEOUT of a free entry changes
nothing is the model's choice (log entry 1). Outside RUNNING every read's outcome is discarded, whatever the end and
whatever the command that was read (R65, R151 to R153, R178): the entry is freed, the slot or the AP goes to IDLE, and
nothing else changes in FAILED, or while another read of a reset that waits is outstanding; with the last one ended, the
self-reset or the function reset completes in the same event (R161, R174). -/
def Obligations.ReadOutcomesDiscarded : Prop :=
  (∀ (s : State),
     (∀ e : Fin 9, s.read e = none → exec (.strayReadResponse e) s = .next s ∧ exec (.hostReadTimeout e) s = .next s) ∧
     (∀ (i : Fin 8) (x : BitVec 512) (xs : List Byte), s.read i = none →
       exec (.descriptorReadReturn i x []) s = .next s ∧ exec (.payloadReadReturn i xs []) s = .next s ∧
       exec (.descriptorReadError i) s = .next s ∧ exec (.payloadReadError i) s = .next s) ∧
     (s.read 8 = none → exec .commandReadError s = .next s ∧
       ∀ (c : Instr) (r : BitVec 512), encodeAdminCommand c = some r → exec c s = .next s)) ∧
  ∀ (s : State), s.hp.device = .failed ∨ s.hp.device = .selfResetting ∨ s.hp.device = .resetting →
    let ends := fun (c : Instr) (t : State) =>
      (s.hp.device = .failed ∨ (∃ j < 9, t.read j ≠ none) → exec c s = .next t) ∧
      (s.hp.device = .selfResetting → (∀ j < 9, t.read j = none) → exec c s = exec .selfResetCompletion t) ∧
      (s.hp.device = .resetting → (∀ j < 9, t.read j = none) → exec c s = exec .functionResetCompletion t)
    (∀ (i : Fin 8) (x : BitVec 512) (ring k : Nat), s.slot i = .descRead ring k →
      let t := (s.setRead i none).setSlot i .idle
      (awaitsResponse s i = true → ends (.descriptorReadReturn i x []) t ∧ ends (.descriptorReadError i) t) ∧
      ((s.read i).isSome = true → ends (.hostReadTimeout (i.castLE (by decide))) t)) ∧
    (∀ (i : Fin 8) (xs : List Byte) (ring r : Nat) (gs : List Segment) (j k : Nat) (e : HostRead),
      s.slot i = .payload ring r gs j k → s.read i = some e →
      let t := (s.setRead i none).setSlot i .idle
      (e.cutOff = false → (xs.length = e.length → ends (.payloadReadReturn i xs []) t) ∧
        ends (.payloadReadError i) t) ∧
      ends (.hostReadTimeout (i.castLE (by decide))) t) ∧
    (s.ap.state = .reading →
      let t := (s.setRead 8 none).onAp fun b => { b with state := .idle }
      (awaitsResponse s 8 = true → ends .commandReadError t ∧
        ∀ (c : Instr) (r : BitVec 512), encodeAdminCommand c = some r → ends c t) ∧
      ((s.read 8).isSome = true → ends (.hostReadTimeout 8) t))

/-! ### Completion rings (chapter 7) -/

/-- A completion record written (R122, R124, R127): 16 bytes at base + 16 × tail with the submission ring's head of
the moment; the tail advanced, the phase inverted at the wrap, reserved down by one; pending up by one, with the
message at the threshold, the holdoff timer started by the first record after a message, and neither otherwise. A
completion without admission (R53) is that record with cut-through no and cells sent 0, and the ring's in-flight count
down by one. HOLDOFF_TIMER_EXPIRY (R128): a message on the ring's vector, pending 0, the timer stopped; nothing where
no timer runs. That an expiry without a running timer changes nothing is the model's choice (log entry 1). That
addresses are sums without a bound is the model's choice (log entry 13). -/
def Obligations.CompletionsWrittenAndCoalesced : Prop :=
  ((∀ (ring : Nat) (tag : BitVec 32) (st : FrameStatus) (sub : Subcode) (cut : Bool) (sent : Nat) (s : State),
     let n := (s.sq ring).cq
     let c := s.cq n
     let record := HostTraffic.write16 (c.base.toNat + 16 * c.tail)
       (completionRecord tag (s.sq ring).head ring st sub sent cut c.phase)
     let written := { c with
       tail := (c.tail + 1) % c.size, phase := if c.tail + 1 = c.size then !c.phase else c.phase,
       reserved := c.reserved - 1 }
     let t := writeCompletion ring tag st sub cut sent s
     t.bm = s.bm ∧ t.dfu = s.dfu ∧ t.lu = s.lu ∧ t.es = s.es ∧ t.ap = s.ap ∧ t.ec = s.ec ∧ t.pending = s.pending ∧
     (∀ m, m ≠ n → t.cq m = s.cq m) ∧
     (c.threshold ≤ c.pending + 1 →
       t.cq n = { written with pending := 0, timer := none } ∧
       t.hp = { s.hp with out := s.hp.out ++ [record, .interrupt c.vector] }) ∧
     (c.pending + 1 < c.threshold →
       t.cq n = { written with
         pending := c.pending + 1,
         timer := if c.pending = 0 ∧ 0 < c.holdoff then some c.holdoff else c.timer } ∧
       t.hp = { s.hp with out := s.hp.out ++ [record] })) ∧
   ∀ (n : Nat) (tag : BitVec 32) (st : FrameStatus) (sub : Subcode) (s : State),
     let t := completeUnadmitted n tag st sub s
     let w := writeCompletion n tag st sub false 0 s
     t = w.setSq n { s.sq n with inFlight := (s.sq n).inFlight - 1 } ∧ t.cu = w.cu ∧ t.hp = w.hp ∧
     (∀ m, m ≠ n → t.sq m = s.sq m) ∧ t.bm = s.bm ∧ t.lu = s.lu ∧ t.es = s.es ∧ t.ap = s.ap ∧ t.ec = s.ec) ∧
  ∀ (n : Fin 16) (s : State),
    (s.hp.device = .running → (s.cq n).timer.isSome = true →
      exec (.holdoffTimerExpiry n) s =
        .next ((s.setCq n { s.cq n with pending := 0, timer := none }).emit (.interrupt (s.cq n).vector))) ∧
    (s.hp.device ≠ .running ∨ (s.cq n).timer = none → exec (.holdoffTimerExpiry n) s = .next s)

/-! ### Submission rings and the fetch path (chapter 3) -/

/-- FETCH_SLOT_GRANT with no retry waiting (R45, R47, R48): the lowest IDLE slot goes to the first ring with a claim
from the one after the last ring granted; without an IDLE slot or a claim, outside RUNNING, or with a retry waiting
(R46), nothing changes. An entry marked yes whose retry got no answer does not wait and bars neither a new read nor
the retry of a later entry, which is the model's choice (log entry 33). RETRY of the first held descriptor marked
retry-ready (R46, R57): not admitted, it is completed or held again, at the tail of the held list with the mark no;
admitted, its record is FILLING at the tail of its flow's queue and the fetch slot fetches its payload, and the ES
considers the flow's link where the record is the queue's head (R89). That a need above the cap gives EXCEEDS_CAP
under DISCARD too is the model's choice (log entry 32). With no retry waiting, without an IDLE slot or outside RUNNING
it changes nothing (log entry 1). That addresses are sums without a bound is the model's choice (log entry 13). -/
def Obligations.FetchSlotGrantedOrRetried : Prop :=
  (∀ s : State,
    (s.hp.device ≠ .running ∨ (∃ e ∈ s.dfu.held, e.ready = true ∧ e.stopped = false) →
      exec .fetchSlotGrant s = .next s) ∧
    (s.hp.device ≠ .running ∨ (∀ e ∈ s.dfu.held, e.ready = false ∨ e.stopped = true) ∨ (∀ i < 8, s.slot i ≠ .idle) →
      exec (.retry []) s = .next s)) ∧
  (∀ (s : State), s.hp.device = .running → (∀ e ∈ s.dfu.held, e.ready = false ∨ e.stopped = true) →
     (∀ i < 8, s.slot i = .idle → (∀ j < i, s.slot j ≠ .idle) →
       (∀ k < 32, s.claims ((s.dfu.lastRing + 1 + k) % 32) → (∀ j < k, ¬ s.claims ((s.dfu.lastRing + 1 + j) % 32)) →
         let n := (s.dfu.lastRing + 1 + k) % 32
         let c := s.sq n
         let address := c.base.toNat + 64 * c.head
         exec .fetchSlotGrant s = .next (((((
           (s.setCq c.cq { s.cq c.cq with reserved := (s.cq c.cq).reserved + 1 }).setSq n
             { c with inFlight := c.inFlight + 1, reading := true }).setSlot i (.descRead n c.head)).onDfu
             fun b => { b with lastRing := n }).setRead i
             (some { address := address, length := 64, timer := 10000, cutOff := false })).emit
             (.readRequest i address 64)))) ∧
     ((∀ i < 8, s.slot i ≠ .idle) ∨ (∀ n < 32, ¬ s.claims n) → exec .fetchSlotGrant s = .next s)) ∧
  ∀ (s : State) (before after : List HeldEntry) (e : HeldEntry) (h : HeldCopy) (i : Nat),
    s.hp.device = .running → i < 8 → s.slot i = .idle → s.dfu.held = before ++ e :: after →
    (∀ x ∈ before, x.ready = false ∨ x.stopped = true) → e.ready = true → e.stopped = false →
    (s.sq e.ring).held = some h →
    let d := h.descriptor
    let free := (s.setSq e.ring { s.sq e.ring with held := none }).onDfu fun b =>
      { b with held := b.held.filter fun x => decide (x.ring ≠ e.ring) }
    ((s.flow d.flow).state ≠ .enabled →
      exec (.retry []) s = .next (completeUnadmitted e.ring d.tag .flowNotReady .none free)) ∧
    ((s.flow d.flow).state = .enabled → s.noRoom d.flow h.need →
      ((s.flow d.flow).cap < h.need →
        exec (.retry []) s = .next (completeUnadmitted e.ring d.tag .invalidDescriptor .exceedsCap free)) ∧
      (h.need ≤ (s.flow d.flow).cap → (s.flow d.flow).policy = .discard →
        exec (.retry []) s = .next (completeUnadmitted e.ring d.tag .droppedNoBuffer .none free)) ∧
      (h.need ≤ (s.flow d.flow).cap → (s.flow d.flow).policy = .hold →
        ∃ t, exec (.retry []) s = .next t ∧ (∀ n, t.sq n = s.sq n) ∧
          t.dfu.held = (s.dfu.held.filter fun x => decide (x.ring ≠ e.ring)) ++
            [{ ring := e.ring, ready := false, stopped := false }] ∧
          t.dfu.slots = s.dfu.slots ∧ t.dfu.lastRing = s.dfu.lastRing ∧ t.bm = s.bm ∧ t.hp = s.hp ∧ t.lu = s.lu ∧
          t.es = s.es ∧ t.cu = s.cu ∧ t.ap = s.ap ∧ t.ec = s.ec)) ∧
    ((s.flow d.flow).state = .enabled → ¬ s.noRoom d.flow h.need → s.eccClean → (∀ j < i, s.slot j ≠ .idle) →
      ∃ t r rest, s.bm.freeRecords = r :: rest ∧ t.bm.freeRecords = rest ∧
        exec (.retry []) s = .next
          (if ((s.flow d.flow).queue ++ [r]).head? = some r then consider (s.flow d.flow).link t else t) ∧
        (t.frame r).state = .filling ∧ (t.frame r).ring = e.ring ∧ (t.frame r).tag = d.tag ∧
        (t.frame r).flow = d.flow ∧ (t.frame r).length = d.length ∧ (t.frame r).cellCount = h.need ∧
        (∀ q, q ≠ r → t.frame q = s.frame q) ∧
        t.flow d.flow = { s.flow d.flow with
          queue := (s.flow d.flow).queue ++ [r], held := (s.flow d.flow).held + h.need } ∧
        t.bm.freeCount = s.bm.freeCount - h.need ∧ t.bm.cells = s.bm.cells ∧
        t.slot i = .payload e.ring r (d.segments.take d.segmentCount) 0 0 ∧ (∀ j, j ≠ i → t.slot j = s.slot j) ∧
        t.sq e.ring = { s.sq e.ring with held := none } ∧ (∀ n, n ≠ e.ring → t.sq n = s.sq n) ∧
        t.dfu.held = (s.dfu.held.filter fun x => decide (x.ring ≠ e.ring)) ∧ t.lu = s.lu ∧ t.es = s.es ∧ t.cu = s.cu ∧
        t.ap = s.ap ∧ t.ec = s.ec)

/-- A descriptor taken from an ACTIVE ring and not admitted (R49, R52, R53, R54, R55): the head advanced and the read ended
first; then the first failing check decides the subcode, or FLOW_NOT_READY, DROPPED_NO_BUFFER or the hold. -/
def Obligations.DescriptorNotAdmitted : Prop :=
  ∀ (s : State) (i : Fin 8) (n k : Nat) (x : BitVec 512),
    s.hp.device = .running → s.slot i = .descRead n k → awaitsResponse s i = true → (s.sq n).state = .active →
    let d := decodeDescriptor x
    let f := s.flow d.flow
    let u := (s.setRead i none).setSq n { s.sq n with head := ((s.sq n).head + 1) % (s.sq n).size, reading := false }
    let ended := fun (st : FrameStatus) (sub : Subcode) =>
      exec (.descriptorReadReturn i x []) s = .next ((completeUnadmitted n d.tag st sub u).setSlot i .idle)
    (d.kind ≠ 1 → ended .invalidDescriptor .badKind) ∧
    (d.kind = 1 →
      (127 < d.flow ∨ f.state = .unconfigured → ended .invalidDescriptor .badFlow) ∧
      (d.flow ≤ 127 → f.state ≠ .unconfigured →
        (d.length = 0 ∨ 16384 < d.length → ended .invalidDescriptor .badLength) ∧
        (1 ≤ d.length → d.length ≤ 16384 →
          let used := d.segments.take d.segmentCount
          let fit := 1 ≤ d.segmentCount ∧ d.segmentCount ≤ 4 ∧ (∀ g ∈ used, g.length ≠ 0) ∧
            (used.map Segment.length).sum = d.length
          (¬ fit → ended .invalidDescriptor .badSegments) ∧
          (fit → f.cap < (d.length + 255) / 256 → ended .invalidDescriptor .exceedsCap)))) ∧
    (s.accepts d →
      (f.state ≠ .enabled → ended .flowNotReady .none) ∧
      (f.state = .enabled → s.noRoom d.flow ((d.length + 255) / 256) →
        (f.policy = .discard → ended .droppedNoBuffer .none) ∧
        (f.policy = .hold → exec (.descriptorReadReturn i x []) s = .next (((u.setSq n { u.sq n with
            held := some { descriptor := d, slot := k, need := (d.length + 255) / 256 } }).onDfu fun b =>
            { b with held := b.held ++ [{ ring := n, ready := false, stopped := false }] }).setSlot i .idle))))

/-- A descriptor admitted (R5, R12, R13, R54, R59): the record taken from the free list and written, its cells the first of
the free cell list, the record at its queue's tail, the slot in PAYLOAD with the first payload read; and the ES considers
the flow's link where the record is the queue's head (R89). -/
def Obligations.DescriptorAdmitted : Prop :=
  ∀ (s : State) (i : Fin 8) (n k r : Nat) (x : BitVec 512) (rest cells : List Nat) (g : Segment) (gs : List Segment),
    s.hp.device = .running → s.slot i = .descRead n k → awaitsResponse s i = true → (s.sq n).state = .active →
    s.eccClean → s.bm.freeRecords = r :: rest →
    let d := decodeDescriptor x
    let f := s.flow d.flow
    let need := (d.length + 255) / 256
    s.accepts d → f.state = .enabled → f.held + need ≤ f.cap → need ≤ s.bm.freeCount →
    d.segments.take d.segmentCount = g :: gs →
    cells.length = need → s.bm.freeHead = cells.head? →
    (∀ j, j + 1 < need → s.linkEntry (cells.getD j 0) = cells[j + 1]?) →
    ∃ t, exec (.descriptorReadReturn i x []) s =
        .next (if (f.queue ++ [r]).head? = some r then consider f.link t else t) ∧
      t.frame r =
        { state := .filling, ring := n, tag := d.tag, flow := d.flow, length := d.length, cellCount := need,
          firstCell := cells.headD 0, lastCell := cells.getLastD 0, filled := 0, fillCell := cells.headD 0,
          fillOffset := 0, sent := 0, fetchEnded := false, linkEnded := false, cutThrough := false, cause := none } ∧
      (∀ q, q ≠ r → t.frame q = s.frame q) ∧
      t.flow d.flow = { f with queue := f.queue ++ [r], held := f.held + need } ∧
      (∀ m, m ≠ d.flow → t.flow m = s.flow m) ∧
      t.bm.freeRecords = rest ∧ t.bm.freeCount = s.bm.freeCount - need ∧ t.bm.cells = s.bm.cells ∧
      t.bm.freeHead = (if need < s.bm.freeCount then s.linkEntry (cells.getLastD 0) else none) ∧
      (need < s.bm.freeCount → t.linkEntry (cells.getLastD 0) = none) ∧
      (∀ c, c ≠ cells.getLastD 0 → t.linkEntry c = s.linkEntry c) ∧
      t.slot i = .payload n r (g :: gs) 0 0 ∧ (∀ j, j ≠ i.val → t.slot j = s.slot j ∧ t.read j = s.read j) ∧
      t.read i = some { address := g.address, length := min 512 g.length, timer := 10000, cutOff := false } ∧
      t.sq n = { s.sq n with head := ((s.sq n).head + 1) % (s.sq n).size, reading := false } ∧
      (∀ m, m ≠ n → t.sq m = s.sq m) ∧ t.dfu.held = s.dfu.held ∧
      t.hp.out = s.hp.out ++ [.readRequest i g.address (min 512 g.length)] ∧
      t.lu = s.lu ∧ t.es = s.es ∧ t.cu = s.cu ∧ t.ap = s.ap ∧ t.ec = s.ec

/-- A descriptor read that leaves nothing taken (R50, R51): on a DELETING ring the data is dropped; a failed read of an
ACTIVE ring puts it in ERROR with RING_ERROR; on a DELETING ring with other descriptors in flight nothing more, and with
none left the deletion ends in the same event: the ring ABSENT with its reset values, and the DELETE_SQ completed OK
(R64). -/
def Obligations.DescriptorReadDroppedOrFailed : Prop :=
  ∀ (s : State) (i : Fin 8) (n k : Nat) (x : BitVec 512), s.hp.device = .running → s.slot i = .descRead n k →
    awaitsResponse s i = true →
    let c := s.sq n
    let left := fun state : SqState => { c with inFlight := c.inFlight - 1, reading := false, state := state }
    let ended := fun (u : State) (x : SqContext) =>
      u.sq n = x ∧
      (∀ m, m ≠ n → u.sq m = s.sq m) ∧ u.slot i = .idle ∧ u.read i = none ∧
      (∀ j, j ≠ i.val → u.slot j = s.slot j ∧ u.read j = s.read j) ∧
      u.cq c.cq = { s.cq c.cq with reserved := (s.cq c.cq).reserved - 1 } ∧ (∀ m, m ≠ c.cq → u.cq m = s.cq m) ∧
      u.hp.out = s.hp.out ∧ u.dfu.held = s.dfu.held ∧ u.bm = s.bm ∧ u.lu = s.lu ∧ u.es = s.es ∧ u.ap = s.ap ∧
      u.ec = s.ec
    (c.state = .deleting → c.inFlight ≠ 1 → c.inFlight ≠ 0 →
      ∃ u, ended u (left .deleting) ∧ exec (.descriptorReadReturn i x []) s = .next u ∧
        exec (.descriptorReadError i) s = .next u ∧ exec (.hostReadTimeout (i.castLE (by decide))) s = .next u) ∧
    (c.state = .deleting → c.inFlight ≤ 1 → ∀ tag before after,
      s.owes { operation := .deleteSq n, tag := tag } before after →
      ∃ u, ended u SqContext.reset ∧
        let t := adminComplete tag 0x02 .ok 0 (u.onAp fun b => { b with outstanding := before ++ after })
        exec (.descriptorReadReturn i x []) s = .next t ∧ exec (.descriptorReadError i) s = .next t ∧
        exec (.hostReadTimeout (i.castLE (by decide))) s = .next t) ∧
    (c.state = .active →
      ∃ u, ended u (left .error) ∧ exec (.descriptorReadError i) s = .next (raiseNotice (.ringError n k) u) ∧
        exec (.hostReadTimeout (i.castLE (by decide))) s = .next (raiseNotice (.ringError n k) u))

/-- The bytes of a payload read of a FILLING or SENDING frame (R1, R14, R15, R59, R60, R107), where no protected
memory shows an error. Byte k stands k bytes on from the fill position along the frame's cells, and no other byte
changes; a completed cell raises cells filled, and the fill moves to the cell its link entry names; the frame's last
byte makes a FILLING frame READY; the fetch goes on with the next piece or the next segment, or ends OK. A rise on a
queue's head goes to the LU of a SENDING frame, where it lets a STARVED serializer begin its next cell, and to the ES.
The fill position after the last byte (log entry 10), the one report of a read that completes several cells (log entry
29) and the list of fetch ends on their way (log entry 11) are the model's. That addresses are sums without a bound is
the model's choice (log entry 13). That a serializer stopped by a refused report takes no fill report is read from R18
(log entry 9, DEDUCED). -/
def Obligations.PayloadBytesFillCells : Prop :=
  ∀ (s : State) (i : Fin 8) (n r j off : Nat) (gs : List Segment) (g : Segment) (e : HostRead) (xs : List Byte)
    (cells : List Nat),
    s.hp.device = .running → s.eccClean → s.slot i = .payload n r gs j off → s.read i = some e → e.cutOff = false →
    xs.length = e.length → gs[j]? = some g →
    let f := s.frame r
    let p := f.fillOffset + xs.length
    let total := 256 * f.filled + p
    f.state = .filling ∨ f.state = .sending → f.cellCount = (f.length + 255) / 256 → f.filled < f.cellCount →
    f.fillOffset < 256 → 1 ≤ xs.length → total ≤ f.length →
    cells.Nodup → cells.length = f.cellCount - f.filled → cells.head? = some f.fillCell →
    (∀ m, m + 1 < cells.length → s.linkEntry (cells.getD m 0) = cells[m + 1]?) →
    ∃ v : State,
      (∀ k < xs.length, v.cellByte (cells.getD ((f.fillOffset + k) / 256) 0) ((f.fillOffset + k) % 256) = xs.getD k 0) ∧
      (∀ c, ∀ o < 256,
        (∀ k < xs.length, ¬ (c = cells.getD ((f.fillOffset + k) / 256) 0 ∧ o = (f.fillOffset + k) % 256)) →
        v.cellByte c o = s.cellByte c o) ∧
      (total < f.length → v.frame r =
        { f with filled := f.filled + p / 256, fillCell := cells.getD (p / 256) 0, fillOffset := p % 256 }) ∧
      (total = f.length → v.frame r =
        { f with
          filled := f.cellCount, state := (if f.state = .filling then .ready else .sending),
          fillCell := (v.frame r).fillCell, fillOffset := (v.frame r).fillOffset }) ∧
      (∀ q, q ≠ r → v.frame q = s.frame q) ∧
      (off + xs.length < g.length →
        v.slot i = .payload n r gs j (off + xs.length) ∧
        v.read i = some
          { address := g.address + (off + xs.length), length := min 512 (g.length - (off + xs.length)), timer := 10000,
            cutOff := false } ∧
        v.hp.out = s.hp.out ++
          [.readRequest i (g.address + (off + xs.length)) (min 512 (g.length - (off + xs.length)))] ∧
        v.bm.fetchEnds = s.bm.fetchEnds) ∧
      (g.length ≤ off + xs.length → ∀ h, gs[j + 1]? = some h →
        v.slot i = .payload n r gs (j + 1) 0 ∧
        v.read i = some { address := h.address, length := min 512 h.length, timer := 10000, cutOff := false } ∧
        v.hp.out = s.hp.out ++ [.readRequest i h.address (min 512 h.length)] ∧ v.bm.fetchEnds = s.bm.fetchEnds) ∧
      (g.length ≤ off + xs.length → gs[j + 1]? = none →
        v.slot i = .idle ∧ v.read i = none ∧ v.hp.out = s.hp.out ∧
        v.bm.fetchEnds = s.bm.fetchEnds ++ [(r, true)]) ∧
      (∀ m, m ≠ i.val → v.slot m = s.slot m ∧ v.read m = s.read m) ∧ v.dfu.rings = s.dfu.rings ∧
      v.dfu.held = s.dfu.held ∧ v.bm.links = s.bm.links ∧ v.bm.flows = s.bm.flows ∧
      v.bm.freeRecords = s.bm.freeRecords ∧ v.bm.freeCount = s.bm.freeCount ∧ v.bm.freeHead = s.bm.freeHead ∧
      v.bm.freeTail = s.bm.freeTail ∧ v.lu = s.lu ∧ v.es = s.es ∧ v.cu = s.cu ∧ v.ap = s.ap ∧ v.ec = s.ec ∧
      let l := (s.flow f.flow).link
      let k := s.link l
      let rises := f.filled < (v.frame r).filled
      let head := (s.flow f.flow).queue.head? = some r
      let run := fun t : State => exec (.payloadReadReturn i xs []) s = .next t
      (¬ rises ∨ ¬ head → run v) ∧
      (rises → head → f.state = .filling →
        (k.serializer ≠ none ∨ (k.state ≠ .active ∧ k.state ≠ .draining) → run v) ∧
        (k.serializer = none → k.state = .active → run (consider l v))) ∧
      (rises → head → f.state = .sending → ∀ z, k.serializer = some z →
        (z.record ≠ r ∨ z.stopped = true → run v) ∧
        (z.record = r → z.stopped = false →
          (z.state = .transmitting →
            run (v.setLink l { k with serializer := some { z with filled := (v.frame r).filled } })) ∧
          (z.state = .starved →
            run (v.setLink l { k with
              serializer := some { z with filled := (v.frame r).filled, state := .transmitting, timer := none } }))))

/-- The ends of payload reads (R14, R59, R60): in CLOSING and DISCARDING the bytes are not written and the fetch reads
on, or ends OK after its last byte; an error or a timeout ends the fetch with error and no further read. The list of
fetch ends on their way is the model's (log entry 11). That addresses are sums without a bound is the model's choice
(log entry 13). -/
def Obligations.PayloadReadEnds : Prop :=
  ∀ (s : State) (i : Fin 8) (n r j off : Nat) (gs : List Segment) (g : Segment) (e : HostRead) (xs : List Byte),
    s.hp.device = .running → s.eccClean → s.slot i = .payload n r gs j off → s.read i = some e →
    (e.cutOff = false → xs.length = e.length → gs[j]? = some g →
      (s.frame r).state = .closing ∨ (s.frame r).state = .discarding →
      (off + xs.length < g.length →
        exec (.payloadReadReturn i xs []) s = .next ((((s.setRead i none).setSlot i
          (.payload n r gs j (off + xs.length))).setRead i (some
            { address := g.address + (off + xs.length), length := min 512 (g.length - (off + xs.length)), timer := 10000,
              cutOff := false })).emit
            (.readRequest i (g.address + (off + xs.length)) (min 512 (g.length - (off + xs.length)))))) ∧
      (g.length ≤ off + xs.length → ∀ h, gs[j + 1]? = some h →
        exec (.payloadReadReturn i xs []) s = .next ((((s.setRead i none).setSlot i (.payload n r gs (j + 1) 0)).setRead i
          (some { address := h.address, length := min 512 h.length, timer := 10000, cutOff := false })).emit
            (.readRequest i h.address (min 512 h.length)))) ∧
      (g.length ≤ off + xs.length → gs[j + 1]? = none →
        exec (.payloadReadReturn i xs []) s = .next (((s.setRead i none).setSlot i .idle).onBm fun b =>
          { b with fetchEnds := b.fetchEnds ++ [(r, true)] }))) ∧
    let failed := ((s.setRead i none).setSlot i .idle).onBm fun b => { b with fetchEnds := b.fetchEnds ++ [(r, false)] }
    (e.cutOff = false → exec (.payloadReadError i) s = .next failed) ∧
    exec (.hostReadTimeout (i.castLE (by decide))) s = .next failed

/-! ### Fetch ends and retirement (chapters 1 and 6) -/

/-- FETCH_END by the record's state (R15, R16, R111, R114): fetch ended yes in every state; an abort order and the
cause FETCH_ABORTED for an error in SENDING; the retirement in CLOSING, in DISCARDING, and for an error in FILLING
(R115), after which the ES considers the link where the record was its queue's head (R89). Outside RUNNING it is
discarded (R19); one that is not on its way changes nothing. It is taken wherever it stands among those on their way;
that list is the model's (log entry 11), and so is the order of the retirement's admin completions before an
activation's (log entry 34). -/
def Obligations.FetchEndTaken : Prop :=
  ∀ (s : State) (r : Fin 2048) (ok : Bool) (before after : List (Nat × Bool)),
    ((∀ x ∈ s.bm.fetchEnds, x.1 ≠ r.val) → exec (.fetchEnd r []) s = .next s) ∧
    (s.bm.fetchEnds = before ++ (r.val, ok) :: after → (∀ x ∈ before, x.1 ≠ r.val) →
      let s1 := s.onBm fun b => { b with fetchEnds := before ++ after }
      let f := s.frame r
      let caused := fun c : FrameCause => if f.cause = none then some c else f.cause
      (s.hp.device ≠ .running → exec (.fetchEnd r []) s = .next s1) ∧
      (s.hp.device = .running → s.eccClean →
        (f.state = .ready ∨ (f.state = .sending ∧ ok = true) →
          exec (.fetchEnd r []) s = .next (s1.setFrame r { f with fetchEnded := true })) ∧
        (f.state = .sending → ok = false →
          exec (.fetchEnd r []) s = .next ((s1.setFrame r
            { f with fetchEnded := true, cause := caused .fetchAborted }).onLu fun b =>
              { b with aborts := b.aborts ++ [((s.flow f.flow).link, r.val)] })) ∧
        (f.state = .closing ∨ f.state = .discarding →
          exec (.fetchEnd r []) s = .next (retire r (s1.setFrame r { f with fetchEnded := true }))) ∧
        (f.state = .filling → ok = false → (s.flow f.flow).queue.head? ≠ some r.val →
          exec (.fetchEnd r []) s = .next (retire r ((s1.setFrame r
            { f with fetchEnded := true, cause := caused .hostReadError }).setFlow f.flow
              { s.flow f.flow with queue := (s.flow f.flow).queue.erase r.val }))) ∧
        (f.state = .filling → ok = false → (s.flow f.flow).queue.head? = some r.val →
          exec (.fetchEnd r []) s = .next (consider (s.flow f.flow).link (retire r ((s1.setFrame r
            { f with fetchEnded := true, cause := caused .hostReadError }).setFlow f.flow
              { s.flow f.flow with queue := (s.flow f.flow).queue.erase r.val }))))))

/-- A frame's retirement (R6, R10, R25, R56, R61, R115, R116): the completion record with the status of its cause, the
cells joined to the free list's tail, the record reset and at the free record list's tail, the flow's and the ring's
counts lowered, every held descriptor marked retry-ready. Where it leaves a FLUSHING flow no cells, the flush ends in
the same event with its flushed frames (R37); where it leaves a DELETING ring nothing in flight, the deletion ends
(R64); where both end, the FLUSH_FLOW is completed before the DELETE_SQ. A count of flushed frames cut to its field's
width is the model's form (log entry 28). -/
def Obligations.FrameRetires : Prop :=
  ∀ (s : State) (r : Nat),
    let f := s.frame r
    let c := s.flow f.flow
    let status : FrameStatus := match f.cause with
      | none => .sent | some .hostReadError => .hostReadError | some .fetchAborted => .fetchAborted
      | some .underrun => .underrun | some .dataError => .dataError | some .linkLost => .linkLost
      | some .flushed => .flushed
    let w := writeCompletion f.ring f.tag status .none f.cutThrough f.sent s
    let flushes := c.state = .flushing ∧ c.held ≤ f.cellCount
    let deletes := (s.sq f.ring).state = .deleting ∧ (s.sq f.ring).inFlight ≤ 1
    ∃ t : State,
      t.cu = w.cu ∧ t.hp = w.hp ∧ t.frame r = FrameRecord.reset ∧ (∀ q, q ≠ r → t.frame q = s.frame q) ∧
      t.bm.freeRecords = s.bm.freeRecords ++ [r] ∧ t.bm.freeCount = s.bm.freeCount + f.cellCount ∧
      t.bm.freeTail = some f.lastCell ∧
      (∀ x, s.bm.freeTail = some x → t.bm.freeHead = s.bm.freeHead ∧ t.linkEntry x = some f.firstCell ∧
        ∀ y, y ≠ x → t.linkEntry y = s.linkEntry y) ∧
      (s.bm.freeTail = none → t.bm.freeHead = some f.firstCell ∧ ∀ y, t.linkEntry y = s.linkEntry y) ∧
      t.bm.cells = s.bm.cells ∧
      t.flow f.flow = { c with
        held := c.held - f.cellCount,
        sent := if f.cause = none then c.sent + 1 else c.sent,
        flushed := if f.cause = some .flushed then c.flushed + 1 else c.flushed } ∧
      (∀ m, m ≠ f.flow → t.flow m = s.flow m) ∧
      t.sq f.ring = { s.sq f.ring with inFlight := (s.sq f.ring).inFlight - 1 } ∧
      (∀ m, m ≠ f.ring → t.sq m = s.sq m) ∧ t.dfu.held = s.dfu.held.map (fun e => { e with ready := true }) ∧
      t.dfu.slots = s.dfu.slots ∧ t.lu = s.lu ∧ t.es = s.es ∧ t.ap = s.ap ∧ t.ec = s.ec ∧
      let flushed := t.setFlow f.flow { t.flow f.flow with state := .disabled }
      let count := (t.flow f.flow).flushed % 65536
      (¬ flushes → ¬ deletes → retire r s = t) ∧
      (flushes → ¬ deletes → ∀ tag before after, s.owes { operation := .flushFlow f.flow, tag := tag } before after →
        retire r s = adminComplete tag 0x13 .ok count (flushed.onAp fun b => { b with outstanding := before ++ after })) ∧
      (¬ flushes → deletes → ∀ tag before after, s.owes { operation := .deleteSq f.ring, tag := tag } before after →
        retire r s = adminComplete tag 0x02 .ok 0 ((t.setSq f.ring SqContext.reset).onAp fun b =>
          { b with outstanding := before ++ after })) ∧
      (flushes → deletes → ∀ tag tag' before after before' after',
        s.owes { operation := .flushFlow f.flow, tag := tag } before after →
        before ++ after = before' ++ { operation := .deleteSq f.ring, tag := tag' } :: after' →
        (∀ x ∈ before', x.operation ≠ .deleteSq f.ring) →
        retire r s = adminComplete tag' 0x02 .ok 0 (((adminComplete tag 0x13 .ok count (flushed.onAp fun b =>
          { b with outstanding := before ++ after })).setSq f.ring SqContext.reset).onAp fun b =>
            { b with outstanding := before' ++ after' }))

/-! ### Admin commands over rings (R62 to R64, R130, R131) -/

/-- CREATE_SQ and CREATE_CQ (R62, R130): the checks in their order, and the context of the ring created. -/
def Obligations.RingsCreated : Prop :=
  ∀ (s : State) (tag : BitVec 16) (ring cq : BitVec 8) (size limit : BitVec 16) (base : Address)
    (vector threshold : BitVec 8) (holdoff : BitVec 16), s.commandArrives →
    let u := s.atDecision
    let sizes := [16, 32, 64, 128, 256, 512, 1024, 2048, 4096]
    let sqOk := ring.toNat ≤ 31 ∧ base.toNat % 64 = 0 ∧ size.toNat ∈ sizes ∧ cq.toNat ≤ 15 ∧ 1 ≤ limit.toNat ∧
      limit.toNat ≤ 2048 ∧ (s.cq cq.toNat).state = .active
    let cqOk := ring.toNat ≤ 15 ∧ base.toNat % 16 = 0 ∧ size.toNat ∈ sizes ∧ 1 ≤ vector.toNat ∧ vector.toNat ≤ 16 ∧
      1 ≤ threshold.toNat ∧ threshold.toNat ≤ 255 ∧ holdoff.toNat ≤ 4095
    (¬ sqOk → exec (.createSq tag ring cq size limit base) s = .next (u.answered tag 0x01 .badParameter 0)) ∧
    (sqOk → (s.sq ring.toNat).state ≠ .absent →
      exec (.createSq tag ring cq size limit base) s = .next (u.answered tag 0x01 .badState 0)) ∧
    (sqOk → (s.sq ring.toNat).state = .absent →
      exec (.createSq tag ring cq size limit base) s = .next ((u.setSq ring.toNat
        { state := .active, base := base, size := size.toNat, cq := cq.toNat, limit := limit.toNat, inFlight := 0,
          head := 0, producer := 0, reading := false, held := none }).answered tag 0x01 .ok 0)) ∧
    (¬ cqOk → exec (.createCq tag ring vector threshold size holdoff base) s =
      .next (u.answered tag 0x03 .badParameter 0)) ∧
    (cqOk → (s.cq ring.toNat).state ≠ .absent →
      exec (.createCq tag ring vector threshold size holdoff base) s = .next (u.answered tag 0x03 .badState 0)) ∧
    (cqOk → (s.cq ring.toNat).state = .absent →
      exec (.createCq tag ring vector threshold size holdoff base) s = .next ((u.setCq ring.toNat
        { state := .active, base := base, size := size.toNat, vector := vector.toNat, threshold := threshold.toNat,
          holdoff := holdoff.toNat, tail := 0, consumer := 0, phase := true, reserved := 0, pending := 0,
          timer := none }).answered tag 0x03 .ok 0))

/-- DELETE_CQ and DELETE_SQ by the ring's state (R58, R63, R64, R131); a DELETE_SQ completes the ring's held
descriptor RING_DELETED; with nothing then in flight the deletion ends in its own event, and with descriptors in
flight the command stays outstanding. That a held descriptor whose retry got no answer is completed too is the model's
choice (log entry 31). That addresses are sums without a bound is the model's choice (log entry 13). -/
def Obligations.RingsDeleted : Prop :=
  ∀ (s : State) (tag : BitVec 16) (ring : BitVec 8), s.commandArrives →
    let u := s.atDecision
    let n := ring.toNat
    (15 < n → exec (.deleteCq tag ring) s = .next (u.answered tag 0x04 .badParameter 0)) ∧
    (n ≤ 15 → (s.cq n).state = .absent → exec (.deleteCq tag ring) s = .next (u.answered tag 0x04 .notFound 0)) ∧
    (n ≤ 15 → (s.cq n).state = .active →
      ((∃ m < 32, (s.sq m).state ≠ .absent ∧ (s.sq m).cq = n) →
        exec (.deleteCq tag ring) s = .next (u.answered tag 0x04 .badState 0)) ∧
      ((∀ m < 32, (s.sq m).state ≠ .absent → (s.sq m).cq ≠ n) →
        exec (.deleteCq tag ring) s = .next ((u.setCq n CqContext.reset).answered tag 0x04 .ok 0))) ∧
    (31 < n → exec (.deleteSq tag ring) s = .next (u.answered tag 0x02 .badParameter 0)) ∧
    (n ≤ 31 →
      ((s.sq n).state = .absent → exec (.deleteSq tag ring) s = .next (u.answered tag 0x02 .notFound 0)) ∧
      ((s.sq n).state = .deleting → exec (.deleteSq tag ring) s = .next (u.answered tag 0x02 .busy 0)) ∧
      ((s.sq n).state = .active ∨ (s.sq n).state = .error → (s.sq n).held = none →
        ((s.sq n).inFlight ≠ 0 → exec (.deleteSq tag ring) s = .next (startCommandRead
          ((u.setSq n { s.sq n with state := .deleting }).onAp fun b =>
            { b with outstanding := b.outstanding ++ [{ operation := .deleteSq n, tag := tag }] }))) ∧
        ((s.sq n).inFlight = 0 → (∀ x ∈ s.ap.outstanding, x.operation ≠ .deleteSq n) →
          ∃ t, exec (.deleteSq tag ring) s = .next t ∧ t.sq n = SqContext.reset ∧ (∀ m, m ≠ n → t.sq m = s.sq m) ∧
            t.ap.outstanding = s.ap.outstanding ∧ t.dfu.held = s.dfu.held ∧ t.dfu.slots = s.dfu.slots ∧
            t.hp.out.take (s.hp.out.length + 1) = s.hp.out ++ [.write32 (s.hp.acrBase.toNat + 32 * s.ap.acrTail)
              (adminRecord tag 0x02 .ok u.ap.asrHead 0 s.ap.acrPhase)] ∧
            t.bm = s.bm ∧ t.lu = s.lu ∧ t.es = s.es ∧ t.cu = s.cu ∧ t.ec = s.ec)) ∧
      ((s.sq n).state = .active ∨ (s.sq n).state = .error → ∀ h, (s.sq n).held = some h →
        let v := completeUnadmitted n h.descriptor.tag .ringDeleted .none ((u.setSq n
          { s.sq n with state := .deleting, held := none }).onDfu fun b =>
            { b with held := b.held.filter fun x => decide (x.ring ≠ n) })
        (1 < (s.sq n).inFlight → exec (.deleteSq tag ring) s = .next (startCommandRead (v.onAp fun b =>
          { b with outstanding := b.outstanding ++ [{ operation := .deleteSq n, tag := tag }] }))) ∧
        ((s.sq n).inFlight ≤ 1 → (∀ x ∈ s.ap.outstanding, x.operation ≠ .deleteSq n) →
          exec (.deleteSq tag ring) s = .next ((v.setSq n SqContext.reset).answered tag 0x02 .ok 0))))

/-! ### Admin commands over flows (R27 to R37) -/

/-- CONFIGURE_FLOW, ENABLE_FLOW and DISABLE_FLOW by the flow's state (the table of R26, R27 to R31): the configuration or the state
written, the held descriptors that name the flow marked retry-ready, and the completion; a refused one changes neither. -/
def Obligations.FlowCommandsTaken : Prop :=
  ∀ (s : State) (tag flow : BitVec 16) (link cls : BitVec 8) (cap : BitVec 16) (policy threshold : BitVec 8),
    s.commandArrives →
    let u := s.atDecision
    let f := flow.toNat
    let c := s.flow f
    let named := fun (x : HeldEntry) => ∃ h, (s.sq x.ring).held = some h ∧ h.descriptor.flow = f
    let taken := fun (i : Instr) (kind : Nat) (x : FlowContext) => ∃ v : State,
      exec i s = .next (v.answered tag kind .ok 0) ∧
      v = (u.setFlow f x).onDfu (fun b => { b with held := v.dfu.held }) ∧
      v.dfu.held.length = s.dfu.held.length ∧
      ∀ (k : Nat) (a b : HeldEntry), s.dfu.held[k]? = some a → v.dfu.held[k]? = some b →
        b.ring = a.ring ∧ b.stopped = a.stopped ∧ (named a → b.ready = true) ∧ (¬ named a → b.ready = a.ready)
    let ranges := f ≤ 127 ∧ link.toNat ≤ 3 ∧ cls.toNat ≤ 7 ∧ 1 ≤ cap.toNat ∧ cap.toNat ≤ 8192 ∧ policy.toNat ≤ 1 ∧
      threshold.toNat ≤ 8
    let configure := Instr.configureFlow tag flow link cls cap policy threshold
    (¬ ranges → exec configure s = .next (u.answered tag 0x10 .badParameter 0)) ∧
    (ranges → c.state = .unconfigured ∨ (c.state = .disabled ∧ c.held = 0) →
      taken configure 0x10 { c with
        state := .disabled, link := link.toNat, cls := cls.toNat, cap := cap.toNat,
        policy := (if policy.toNat = 0 then .hold else .discard), threshold := threshold.toNat, sent := 0,
        flushed := 0 }) ∧
    (ranges → c.state = .enabled ∨ c.state = .flushing ∨ (c.state = .disabled ∧ c.held ≠ 0) →
      exec configure s = .next (u.answered tag 0x10 .badState 0)) ∧
    (127 < f → exec (.enableFlow tag flow) s = .next (u.answered tag 0x11 .badParameter 0) ∧
      exec (.disableFlow tag flow) s = .next (u.answered tag 0x12 .badParameter 0)) ∧
    (f ≤ 127 →
      (c.state = .unconfigured → exec (.enableFlow tag flow) s = .next (u.answered tag 0x11 .notFound 0) ∧
        exec (.disableFlow tag flow) s = .next (u.answered tag 0x12 .notFound 0)) ∧
      (c.state = .disabled → taken (.enableFlow tag flow) 0x11 { c with state := .enabled } ∧
        exec (.disableFlow tag flow) s = .next (u.answered tag 0x12 .badState 0)) ∧
      (c.state = .enabled → exec (.enableFlow tag flow) s = .next (u.answered tag 0x11 .badState 0) ∧
        taken (.disableFlow tag flow) 0x12 { c with state := .disabled }) ∧
      (c.state = .flushing → exec (.enableFlow tag flow) s = .next (u.answered tag 0x11 .badState 0) ∧
        exec (.disableFlow tag flow) s = .next (u.answered tag 0x12 .badState 0)))

/-- FLUSH_FLOW (R27, R33, R34, R37): by the flow's state; with no descriptor held for the flow, an empty flow without cells
ends its flush at once, a SENDING head alone is left in place, and a FILLING record leaves the queue for DISCARDING with
cause FLUSHED. -/
def Obligations.FlushFlowTaken : Prop :=
  ∀ (s : State) (tag flow : BitVec 16), s.commandArrives → s.eccClean →
    let u := s.atDecision
    let f := flow.toNat
    let c := s.flow f
    let outstanding := fun (v : State) => startCommandRead (v.onAp fun b =>
      { b with outstanding := b.outstanding ++ [{ operation := .flushFlow f, tag := tag }] })
    (127 < f → exec (.flushFlow tag flow) s = .next (u.answered tag 0x13 .badParameter 0)) ∧
    (f ≤ 127 →
      (c.state = .unconfigured → exec (.flushFlow tag flow) s = .next (u.answered tag 0x13 .notFound 0)) ∧
      (c.state = .flushing → exec (.flushFlow tag flow) s = .next (u.answered tag 0x13 .busy 0)) ∧
      (c.state = .enabled ∨ c.state = .disabled →
        (∀ x ∈ s.dfu.held, ∀ h, (s.sq x.ring).held = some h → h.descriptor.flow ≠ f) →
        (c.queue = [] → c.held = 0 →
          ∃ v : State, exec (.flushFlow tag flow) s = .next (v.answered tag 0x13 .ok 0) ∧
            v.flow f = { c with state := .disabled, flushed := 0 } ∧ (∀ m, m ≠ f → v.flow m = s.flow m) ∧
            v.bm.frames = s.bm.frames ∧ v.bm.cells = s.bm.cells ∧ v.bm.freeRecords = s.bm.freeRecords ∧
            v.hp = u.hp ∧ v.dfu = s.dfu ∧ v.lu = s.lu ∧ v.es = s.es ∧ v.cu = s.cu ∧ v.ap = u.ap ∧ v.ec = s.ec) ∧
        (∀ r, c.queue = [r] → c.held ≠ 0 → (s.frame r).state = .sending →
          exec (.flushFlow tag flow) s = .next (outstanding (u.setFlow f { c with state := .flushing, flushed := 0 }))) ∧
        (∀ r, c.queue = [r] → c.held ≠ 0 → (s.frame r).state = .filling → (s.frame r).flow = f →
          (s.link c.link).state ≠ .active →
          ∃ v : State, exec (.flushFlow tag flow) s = .next (outstanding v) ∧
            v.flow f = { c with state := .flushing, flushed := 0, queue := [] } ∧ (∀ m, m ≠ f → v.flow m = s.flow m) ∧
            v.frame r = { s.frame r with
              state := .discarding,
              cause := if (s.frame r).cause = none then some .flushed else (s.frame r).cause } ∧
            (∀ q, q ≠ r → v.frame q = s.frame q) ∧ v.bm.cells = s.bm.cells ∧ v.bm.freeCount = s.bm.freeCount ∧
            v.hp = u.hp ∧ v.dfu = s.dfu ∧ v.lu = s.lu ∧ v.es = s.es ∧ v.cu = s.cu ∧ v.ap = u.ap ∧ v.ec = s.ec)))

/-- The walk of a FLUSH_FLOW over a queue of any records (R33, R34, R37, R58, R89), where no protected memory shows an
error and no ring of the records is DELETING: first the held descriptors that name the flow are completed
FLOW_NOT_READY in held-list order; then the SENDING head stays, a READY record whose fetch has ended retires FLUSHED,
in queue order, and every other record leaves for DISCARDING; the ES considers the flow's link where the head changed;
the flush ends in the same event where the flow then holds no cells. That a held descriptor whose retry got no answer
is completed too is the model's choice (log entry 31). The order of the admin completions follows R144 (log entry 14,
DEDUCED). A count of flushed frames cut to its field's width is the model's form (log entry 28). -/
def Obligations.FlushWalksQueue : Prop :=
  ∀ (s : State) (tag flow : BitVec 16), s.commandArrives → s.eccClean →
    let u := s.atDecision
    let f := flow.toNat
    let c := s.flow f
    let qs := c.queue
    let ready := fun r => decide ((s.frame r).state = .ready ∧ (s.frame r).fetchEnded = true)
    f ≤ 127 → c.state = .enabled ∨ c.state = .disabled → qs.Nodup →
    (∀ r ∈ qs, (s.frame r).flow = f ∧ (s.sq (s.frame r).ring).state ≠ .deleting ∧
      ((s.frame r).state = .filling ∨ (s.frame r).state = .ready ∨ (s.frame r).state = .sending) ∧
      (ready r = true → (s.frame r).cause = none)) →
    (s.dfu.held.map HeldEntry.ring).Nodup →
    let named := s.dfu.held.filterMap fun x => match (s.sq x.ring).held with
      | some h => if h.descriptor.flow = f then some (x.ring, h.descriptor.tag) else none
      | none => none
    let w := named.foldl (fun v p => completeUnadmitted p.1 p.2 .flowNotReady .none
      ((v.setSq p.1 { v.sq p.1 with held := none }).onDfu fun b =>
        { b with held := b.held.filter fun x => decide (x.ring ≠ p.1) }))
      (u.setFlow f { c with state := .flushing, flushed := 0 })
    let gone := qs.filter ready
    let x := gone.foldl (fun v r => writeCompletion (s.frame r).ring (s.frame r).tag .flushed .none
      (s.frame r).cutThrough (s.frame r).sent v) w
    ∃ v : State,
      v.flow f = { c with
        state := .flushing, flushed := gone.length, held := c.held - (gone.map fun r => (s.frame r).cellCount).sum,
        queue := qs.filter fun r => decide ((s.frame r).state = .sending) } ∧
      (∀ m, m ≠ f → v.flow m = s.flow m) ∧
      (∀ r ∈ qs, (s.frame r).state = .sending → v.frame r = s.frame r) ∧
      (∀ r ∈ gone, v.frame r = FrameRecord.reset) ∧
      (∀ r ∈ qs, (s.frame r).state ≠ .sending → ready r = false → v.frame r = { s.frame r with
        state := .discarding, cause := if (s.frame r).cause = none then some .flushed else (s.frame r).cause }) ∧
      (∀ r, r ∉ qs → v.frame r = s.frame r) ∧ v.bm.freeRecords = s.bm.freeRecords ++ gone ∧
      v.bm.freeCount = s.bm.freeCount + (gone.map fun r => (s.frame r).cellCount).sum ∧
      (∀ r, gone.getLast? = some r → v.bm.freeTail = some (s.frame r).lastCell) ∧ v.bm.cells = s.bm.cells ∧
      v.cu = x.cu ∧ v.hp = x.hp ∧
      (∀ n, v.sq n = { w.sq n with
        inFlight := (w.sq n).inFlight - (gone.filter fun r => decide ((s.frame r).ring = n)).length }) ∧
      v.dfu.held = (if gone = [] then w.dfu.held else w.dfu.held.map fun e => { e with ready := true }) ∧
      v.dfu.slots = s.dfu.slots ∧ v.lu = s.lu ∧ v.es = s.es ∧ v.ap = u.ap ∧ v.ec = s.ec ∧
      let t := if (v.flow f).queue.head? = qs.head? then v else consider c.link v
      ((t.flow f).held = 0 → exec (.flushFlow tag flow) s = .next
        ((t.setFlow f { t.flow f with state := .disabled }).answered tag 0x13 .ok ((t.flow f).flushed % 65536))) ∧
      ((t.flow f).held ≠ 0 → exec (.flushFlow tag flow) s = .next (startCommandRead (t.onAp fun b =>
        { b with outstanding := b.outstanding ++ [{ operation := .flushFlow f, tag := tag }] })))

/-- QUERY_FLOW, QUERY_LINK, QUERY_POOL and UNKNOWN_COMMAND (R32, R83, R147, R137, section 11.5): answered with the
values of the moment, byte by byte of the result field, and nothing changed. An UNKNOWN_COMMAND term that carries one
of the seventeen kinds is ill-formed and is answered like the others (log entry 22). A value cut to its field's width
is the model's form (log entry 28). -/
def Obligations.QueriesAnswered : Prop :=
  ∀ (s : State) (tag flow : BitVec 16) (link kind : BitVec 8), s.commandArrives →
    let u := s.atDecision
    let c := s.flow flow.toNat
    let k := s.link link.toNat
    let h := s.sched link.toNat
    let lanes := fun l : Nat => fun x : BitVec 160 => ∀ n < 4,
      recordField x (2 + 2 * n) 2 = s.available l n % 65536 ∧ recordField x (10 + 2 * n) 2 = s.announced l n % 65536
    (127 < flow.toNat → exec (.queryFlow tag flow) s = .next (u.answered tag 0x14 .badParameter 0)) ∧
    (flow.toNat ≤ 127 → ∃ x : BitVec 160, exec (.queryFlow tag flow) s = .next (u.answered tag 0x14 .ok x.toNat) ∧
      recordField x 0 1 = c.state.code ∧ recordField x 1 1 = 0 ∧ recordField x 2 2 = c.queue.length % 65536 ∧
      recordField x 4 2 = c.held % 65536 ∧ recordField x 6 4 = c.sent.toNat ∧ recordField x 10 10 = 0) ∧
    (3 < link.toNat → exec (.queryLink tag link) s = .next (u.answered tag 0x23 .badParameter 0)) ∧
    (link.toNat ≤ 3 → ∃ x : BitVec 160, exec (.queryLink tag link) s = .next (u.answered tag 0x23 .ok x.toNat) ∧
      recordField x 0 1 = k.state.code ∧ recordField x 1 1 = causeCode k.cause ∧ lanes link.toNat x ∧
      recordField x 18 1 = h.pointer % 256 ∧ recordField x 19 1 = bit h.activation) ∧
    (∃ x : BitVec 160, exec (.queryPool tag) s = .next (u.answered tag 0x41 .ok x.toNat) ∧
      recordField x 0 2 = s.bm.freeCount % 65536 ∧ recordField x 2 2 = s.bm.freeRecords.length % 65536 ∧
      recordField x 4 2 = s.ec.cellDataCount % 65536 ∧ recordField x 6 2 = s.ec.linkTableCount % 65536 ∧
      recordField x 8 2 = s.ec.frameTableCount % 65536 ∧ recordField x 10 10 = 0) ∧
    exec (.unknownCommand tag kind) s = .next (u.answered tag kind.toNat .unknownCommand 0)

/-! ### Links (chapter 4) -/

/-- ENABLE_LINK (R75): checked, then taken by the link's state; on a DISABLED or FAILED link the cause is absent, the credit
0, OFFER sent, both timers running, and the command outstanding. -/
def Obligations.LinkEnabled : Prop :=
  ∀ (s : State) (tag : BitVec 16) (link : BitVec 8) (timeout : BitVec 16), s.commandArrives →
    let u := s.atDecision
    let l := link.toNat
    let k := s.link l
    let enable := Instr.enableLink tag link timeout
    (3 < l ∨ timeout.toNat = 0 ∨ 1000 < timeout.toNat → exec enable s = .next (u.answered tag 0x20 .badParameter 0)) ∧
    (l ≤ 3 → 1 ≤ timeout.toNat → timeout.toNat ≤ 1000 →
      (k.state = .disabled ∨ k.state = .failed →
        exec enable s = .next (startCommandRead (((u.setLink l { k with
          state := .awaitPartner, cause := none, announced := [], available := [], offerTimer := some 1,
          linkUpTimer := some timeout.toNat, outstanding := some .enable }).send l (.offer l)).onAp fun b =>
            { b with outstanding := b.outstanding ++ [{ operation := .enableLink l, tag := tag }] }))) ∧
      (k.state = .awaitPartner ∨ k.state = .draining → exec enable s = .next (u.answered tag 0x20 .busy 0)) ∧
      (k.state = .active → exec enable s = .next (u.answered tag 0x20 .badState 0)))

/-- DISABLE_LINK by the link's state (R78, R99): in AWAIT_PARTNER the ENABLE_LINK is completed ABORTED first; in ACTIVE
the link is DISABLED at once where its serializer is idle, and DRAINING where it is busy; a pending activation is applied
after that, in either case. Where two commands complete in one event their order follows log entry 14. -/
def Obligations.LinkDisabled : Prop :=
  ∀ (s : State) (tag : BitVec 16) (link : BitVec 8), s.commandArrives →
    let u := s.atDecision
    let l := link.toNat
    let k := s.link l
    let disable := Instr.disableLink tag link
    (3 < l → exec disable s = .next (u.answered tag 0x21 .badParameter 0)) ∧
    (l ≤ 3 →
      (k.state = .disabled → exec disable s = .next (u.answered tag 0x21 .ok 0)) ∧
      (k.state = .failed → exec disable s = .next ((u.setLink l { k with
        state := .disabled, announced := [], available := [] }).answered tag 0x21 .ok 0)) ∧
      (k.state = .draining → exec disable s = .next (u.answered tag 0x21 .busy 0)) ∧
      (k.state = .awaitPartner → k.outstanding = some .enable → ∀ tag' before after,
        s.owes { operation := .enableLink l, tag := tag' } before after →
        exec disable s = .next ((adminComplete tag' 0x20 .aborted 0 (((u.setLink l { k with
          state := .disabled, announced := [], available := [], offerTimer := none, linkUpTimer := none,
          outstanding := none }).send l (.down l)).onAp fun b =>
            { b with outstanding := before ++ after })).answered tag 0x21 .ok 0)) ∧
      (k.state = .active → k.serializer = none →
        let v := adminComplete tag 0x21 .ok 0 ((u.setLink l { k with
          state := .disabled, announced := [], available := [] }).send l (.down l))
        ((s.sched l).activation = false → exec disable s = .next (startCommandRead v)) ∧
        ((s.sched l).activation = true → ∀ tag' before after,
          s.owes { operation := .activateCalendar l, tag := tag' } before after →
          exec disable s = .next (startCommandRead (adminComplete tag' 0x31 .ok 0 ((v.setSched l { s.sched l with
            active := (s.sched l).shadow, pointer := 0, activation := false }).onAp fun b =>
              { b with outstanding := before ++ after }))))) ∧
      (k.state = .active → k.serializer ≠ none → (s.sched l).activation = false →
        exec disable s = .next (startCommandRead ((u.setLink l { k with
          state := .draining, outstanding := some .disable }).onAp fun b =>
            { b with outstanding := b.outstanding ++ [{ operation := .disableLink l, tag := tag }] }))) ∧
      (k.state = .active → k.serializer ≠ none → (s.sched l).activation = true → ∀ tag' before after,
        s.owes { operation := .activateCalendar l, tag := tag' } before after →
        exec disable s = .next (startCommandRead (adminComplete tag' 0x31 .ok 0 (((u.setLink l { k with
          state := .draining, outstanding := some .disable }).setSched l { s.sched l with
            active := (s.sched l).shadow, pointer := 0, activation := false }).onAp fun b =>
              { b with outstanding := before ++ after ++ [{ operation := .disableLink l, tag := tag }] })))))

/-- READY in AWAIT_PARTNER (R73): announced and available credit of each lane as the message carries them, both timers
stopped, ACTIVE, the ENABLE_LINK completed OK, and the link considered by the ES, which does nothing where no frame is
queued and no activation is pending. The OFFER timer and the link-up timer in AWAIT_PARTNER (R76, R77); where the timer
does not run nothing changes. That an expiry changes nothing there is the model's choice (log entry 1). -/
def Obligations.LinkComesUpOrTimesOut : Prop :=
  (∀ (s : State) (l : Fin 4) (c0 c1 c2 c3 tag : BitVec 16) (before after : List Outstanding),
     c0.toNat ≤ 1023 → c1.toNat ≤ 1023 → c2.toNat ≤ 1023 → c3.toNat ≤ 1023 → s.hp.device = .running →
     (s.link l).state = .awaitPartner → (s.link l).outstanding = some .enable →
     s.owes { operation := .enableLink l, tag := tag } before after →
     ∃ a : Table Nat, tableGet creditUnlisted a 0 = c0.toNat ∧ tableGet creditUnlisted a 1 = c1.toNat ∧
       tableGet creditUnlisted a 2 = c2.toNat ∧ tableGet creditUnlisted a 3 = c3.toNat ∧
       let v := adminComplete tag 0x20 .ok 0 ((s.setLink l { s.link l with
         state := .active, announced := a, available := a, offerTimer := none, linkUpTimer := none,
         outstanding := none }).onAp fun b => { b with outstanding := before ++ after })
       exec (.ready l c0 c1 c2 c3) s = .next (consider l v) ∧
       ((∀ f < 128, (s.flow f).link = l → (s.flow f).queue = []) → (s.sched l).activation = false →
         exec (.ready l c0 c1 c2 c3) s = .next v)) ∧
  ∀ (s : State) (l : Fin 4),
    let k := s.link l
    (s.hp.device = .running → k.state = .awaitPartner →
      (k.offerTimer.isSome = true → exec (.offerTimerExpiry l) s =
        .next ((s.setLink l { k with offerTimer := some 1 }).send l (.offer l))) ∧
      (k.linkUpTimer.isSome = true → k.outstanding = some .enable → ∀ tag before after,
        s.owes { operation := .enableLink l, tag := tag } before after →
        exec (.linkUpTimerExpiry l) s = .next (adminComplete tag 0x20 .timeout 0 (((s.setLink l { k with
          state := .disabled, announced := [], available := [], offerTimer := none, linkUpTimer := none,
          outstanding := none }).send l (.down l)).onAp fun b => { b with outstanding := before ++ after })))) ∧
    (s.hp.device ≠ .running ∨ k.state ≠ .awaitPartner ∨ k.offerTimer = none →
      exec (.offerTimerExpiry l) s = .next s) ∧
    (s.hp.device ≠ .running ∨ k.state ≠ .awaitPartner ∨ k.linkUpTimer = none →
      exec (.linkUpTimerExpiry l) s = .next s)

/-- Messages that do not fail the link (R70, R72, R74, R85): a CREDIT within the announced credit of its lane raises the
lane's credit; a message in a state that does not take it, or outside RUNNING, changes nothing. -/
def Obligations.CreditTakenOrMessageIgnored : Prop :=
  ∀ (s : State) (l : Fin 4) (lane field : BitVec 8) (count a b c d : BitVec 16),
    let k := s.link l
    (s.hp.device = .running → k.state = .active ∨ k.state = .draining → lane.toNat < 4 → 1 ≤ count.toNat →
      count.toNat ≤ 1023 → s.available l lane.toNat + count.toNat ≤ s.announced l lane.toNat →
      let v := s.setLink l { k with
        available := tableSet creditUnlisted k.available lane.toNat (s.available l lane.toNat + count.toNat) }
      (k.state = .active → exec (.credit l lane count) s = .next (consider l v)) ∧
      (k.state = .draining → exec (.credit l lane count) s = .next v)) ∧
    (s.hp.device ≠ .running ∨ k.state = .disabled ∨ k.state = .awaitPartner ∨ k.state = .failed →
      exec (.credit l lane count) s = .next s ∧ exec (.down l field) s = .next s ∧
      exec (.malformedMessage l) s = .next s) ∧
    (s.hp.device ≠ .running ∨ k.state = .disabled ∨ k.state = .failed ∨
        (k.state = .awaitPartner ∧ (1023 < a.toNat ∨ 1023 < b.toNat ∨ 1023 < c.toNat ∨ 1023 < d.toNat)) →
      exec (.ready l a b c d) s = .next s)

/-- What fails a link (R70, R72, R73, R74, R184) and what its failure does (R80): the frame on the link lost with
LINK_LOST, retired where its fetch has ended and CLOSING where not (R113), the credit 0, the cause kept, DOWN sent
unless the partner's DOWN is the cause, LINK_FAILED raised; an ACTIVE link's pending activation is applied after that
(R99), and a draining link is then DISABLED and its DISABLE_LINK completed OK. A partner's DOWN ends a drain without
cause, DOWN or notice; that the admin completions of the frame's retirement come before the DISABLE_LINK's there is
the model's choice (log entry 34). That a serializer stopped by a refused report keeps its fields is read from R18,
and the note that its frame was cut short is the model's (log entry 9, DEDUCED). -/
def Obligations.LinkFails : Prop :=
  ∀ (s : State) (l : Fin 4) (i : Instr) (cause : LinkCause), s.hp.device = .running →
    let k := s.link l
    let left := fun (z : Serializer) (state : FrameState) =>
      let f := s.frame z.record
      ((s.setLink l { k with serializer := none }).setFrame z.record { f with
        linkEnded := true, cause := (if f.cause = none then some .linkLost else f.cause), state := state }).setFlow
          f.flow { s.flow f.flow with queue := (s.flow f.flow).queue.erase z.record }
    let cut := fun v : State =>
      (k.serializer = none ∧ v = s) ∨ ∃ z, k.serializer = some z ∧
        ((z.stopped = true ∧ v = s.setLink l { k with serializer := some { z with lost := true } }) ∨
          (z.stopped = false ∧ s.eccClean ∧ (s.frame z.record).state = .sending ∧
            (((s.frame z.record).fetchEnded = false ∧ v = left z .closing) ∨
              ((s.frame z.record).fetchEnded = true ∧ v = retire z.record (left z .sending)))))
    let lost := fun (v : State) (state : LinkState) (cause : Option LinkCause) (owed : Option LinkCommand) =>
      v.setLink l { v.link l with
        announced := [], available := [], state := state, cause := cause, outstanding := owed }
    let warn := fun v : State =>
      raiseNotice (.linkFailed l cause) (if cause = .partnerDown then v else v.send l (.down l))
    ((((∃ a b c d, i = .ready l a b c d) ∨ i = .malformedMessage l ∨
          ∃ lane n, i = .credit l lane n ∧ (4 ≤ lane.toNat ∨ n.toNat = 0 ∨ 1023 < n.toNat)) ∧
        cause = .protocol ∧ (k.state = .active ∨ k.state = .draining)) ∨
      ((∃ lane n, i = .credit l lane n ∧ lane.toNat < 4 ∧ 1 ≤ n.toNat ∧ n.toNat ≤ 1023 ∧
          s.announced l lane.toNat < s.available l lane.toNat + n.toNat) ∧
        cause = .creditOverflow ∧ (k.state = .active ∨ k.state = .draining)) ∨
      ((∃ x, i = .down l x) ∧ cause = .partnerDown ∧ k.state = .active) → ∀ v, cut v →
      (k.state = .active → (s.sched l).activation = false →
        exec i s = .next (warn (lost v .failed (some cause) k.outstanding))) ∧
      (k.state = .active → (s.sched l).activation = true → ∀ tag before after,
        v.owes { operation := .activateCalendar l, tag := tag } before after →
        exec i s = .next (adminComplete tag 0x31 .ok 0 (((warn (lost v .failed (some cause) k.outstanding)).setSched l
          { s.sched l with active := (s.sched l).shadow, pointer := 0, activation := false }).onAp fun b =>
            { b with outstanding := before ++ after }))) ∧
      (k.state = .draining → k.outstanding = some .disable → ∀ tag before after,
        v.owes { operation := .disableLink l, tag := tag } before after →
        exec i s = .next (adminComplete tag 0x21 .ok 0 ((warn (lost v .disabled (some cause) none)).onAp fun b =>
          { b with outstanding := before ++ after })))) ∧
    (∀ x, i = .down l x → k.state = .draining → k.outstanding = some .disable → ∀ v, cut v → ∀ tag before after,
      v.owes { operation := .disableLink l, tag := tag } before after →
      exec i s = .next (adminComplete tag 0x21 .ok 0 ((lost v .disabled k.cause none).onAp fun b =>
        { b with outstanding := before ++ after })))

/-! ### Class maps and calendars (chapters 4 and 5) -/

/-- SET_CLASS_MAP and WRITE_CALENDAR (R82, R96): the checks in their order; the lane of each class and the mask written, on
a DISABLED link; the slots named written into the shadow calendar, an entry equal to the blank code as BLANK. -/
def Obligations.ClassMapAndCalendarWritten : Prop :=
  ∀ (s : State) (tag : BitVec 16) (link mask start count blank : BitVec 8) (lanes : BitVec 64) (entries : BitVec 448),
    s.commandArrives →
    let u := s.atDecision
    let l := link.toNat
    let h := s.sched l
    let lane := fun c => lanes.toNat / 256 ^ c % 256
    let entry := fun j =>
      if entries.toNat / 128 ^ j % 128 = blank.toNat then none else some (entries.toNat / 128 ^ j % 128)
    let map := Instr.setClassMap tag link mask lanes
    let write := Instr.writeCalendar tag link start count blank entries
    let ok := l ≤ 3 ∧ start.toNat ≤ 63 ∧ 1 ≤ count.toNat ∧ count.toNat ≤ 64 ∧ start.toNat + count.toNat ≤ 64
    (3 < l ∨ (∃ c < 8, 3 < lane c) → exec map s = .next (u.answered tag 0x22 .badParameter 0)) ∧
    (l ≤ 3 → (∀ c < 8, lane c ≤ 3) →
      ((s.link l).state ≠ .disabled → exec map s = .next (u.answered tag 0x22 .badState 0)) ∧
      ((s.link l).state = .disabled → ∃ m : Table Nat, (∀ c < 8, tableGet laneUnlisted m c = lane c) ∧
        exec map s = .next ((u.setSched l { h with classMap := m, mask := mask }).answered tag 0x22 .ok 0))) ∧
    (¬ ok → exec write s = .next (u.answered tag 0x30 .badParameter 0)) ∧
    (ok → h.activation = true → exec write s = .next (u.answered tag 0x30 .busy 0)) ∧
    (ok → h.activation = false → ∃ x : Table (Option Nat),
      (∀ p, tableGet calendarUnlisted x p =
        if start.toNat ≤ p ∧ p < start.toNat + count.toNat then entry (p - start.toNat)
        else tableGet calendarUnlisted h.shadow p) ∧
      exec write s = .next ((u.setSched l { h with shadow := x }).answered tag 0x30 .ok 0))

/-- ACTIVATE_CALENDAR and the apply (R97, R98): with nothing to send the shadow calendar becomes the active one at
once, the pointer 0, the command OK; else it is outstanding and the activation pending, and where the serializer is
idle the ES considers the link in the same event. ACTIVATION_APPLY does the same to a pending activation where the
link allows it, and nothing elsewhere. The row's own event is the model's choice (log entries 1 and 18). That an apply
in the command's own search is completed before the fresh turn is read from R93 and R97 (log entry 14, DEDUCED). -/
def Obligations.CalendarActivated : Prop :=
  ∀ (s : State) (tag : BitVec 16) (link : BitVec 8),
    let u := s.atDecision
    let l := link.toNat
    let h := s.sched l
    let applied := { h with active := h.shadow, pointer := 0, activation := false }
    let free := fun n => (s.link n).state ≠ .active ∨
      ((s.link n).serializer = none ∧ ∀ f < 128, (s.flow f).link = n → (s.flow f).queue = [])
    let waits := (u.setSched l { h with activation := true }).onAp fun b =>
      { b with outstanding := b.outstanding ++ [{ operation := .activateCalendar l, tag := tag }] }
    (s.commandArrives →
      (3 < l → exec (.activateCalendar tag link) s = .next (u.answered tag 0x31 .badParameter 0)) ∧
      (l ≤ 3 → h.activation = true → exec (.activateCalendar tag link) s = .next (u.answered tag 0x31 .busy 0)) ∧
      (l ≤ 3 → h.activation = false →
        (free l → (∀ x ∈ s.ap.outstanding, x.operation ≠ .activateCalendar l) →
          exec (.activateCalendar tag link) s = .next ((u.setSched l applied).answered tag 0x31 .ok 0)) ∧
        ((s.link l).state = .active → (s.link l).serializer ≠ none →
          exec (.activateCalendar tag link) s = .next (startCommandRead waits)) ∧
        ((s.link l).state = .active → (s.link l).serializer = none → ¬ free l →
          exec (.activateCalendar tag link) s = .next (startCommandRead (consider l waits))))) ∧
    ∀ n : Fin 4,
      (s.hp.device = .running → (s.sched n).activation = true → free n → ∀ before after,
        s.owes { operation := .activateCalendar n, tag := tag } before after →
        exec (.activationApply n) s = .next (adminComplete tag 0x31 .ok 0 ((s.setSched n { s.sched n with
          active := (s.sched n).shadow, pointer := 0, activation := false }).onAp fun b =>
            { b with outstanding := before ++ after }))) ∧
      (s.hp.device ≠ .running ∨ (s.sched n).activation = false ∨ ¬ free n →
        exec (.activationApply n) s = .next s)

/-- The two tiers of an arbitration and the grant (R88, R90 to R94, R97, R99, R104, R105), where no protected memory
shows an error: the first expedited flow from the one after the pointer; else the first calendar slot from the pointer
whose flow may be granted; the pointer update, the credit deducted, HEADER sent, the record SENDING, the first cell
begun. A pending activation is applied at the wrap, and where every queue of the link is empty; it stays pending where
frames are queued and none may be granted. Without an activation and a winner nothing changes. That a head found
uncorrectable is passed over afterwards is read from R18 (log entry 7, DEDUCED). That the completion of an activation
applied comes before the fresh turn and its grant is read from R93 and R97 (log entry 14, DEDUCED). -/
def Obligations.LinkGranted : Prop :=
  ∀ (s : State) (l : Nat), s.hp.device = .running → s.eccClean → (s.link l).state = .active →
    (s.link l).serializer = none →
    let h := s.sched l
    let urgent := fun f => h.mask.getLsbD (s.flow f).cls = true ∧ s.mayGrant l f
    let slot := fun (calendar : Table (Option Nat)) p f => tableGet calendarUnlisted calendar p = some f ∧ s.mayGrant l f
    (∀ k < 128, ∀ r rest,
      let f := (h.expedited + 1 + k) % 128
      (s.flow f).queue = r :: rest → urgent f → (∀ j < k, ¬ urgent ((h.expedited + 1 + j) % 128)) →
      consider l s = s.granted l f r { h with expedited := f }) ∧
    ((∀ f < 128, ¬ urgent f) → h.pointer < 64 →
      (∀ k < 64, ∀ f < 128, ∀ r rest, (s.flow f).queue = r :: rest → slot h.active ((h.pointer + k) % 64) f →
        (∀ j < k, ∀ g, ¬ slot h.active ((h.pointer + j) % 64) g) →
        h.activation = false ∨ (0 < h.pointer ∧ h.pointer + k < 64) →
        consider l s = s.granted l f r { h with pointer := ((h.pointer + k) % 64 + 1) % 64 }) ∧
      (h.activation = true → (∃ f < 128, s.mayGrant l f) →
        (∀ p < 64, 0 < h.pointer → h.pointer ≤ p → ∀ g, ¬ slot h.active p g) →
        (∀ k < 64, ∀ f r rest, (s.flow f).queue = r :: rest → slot h.shadow k f → (∀ j < k, ∀ g, ¬ slot h.shadow j g) →
          let v := applyActivation l s
          consider l s = v.granted l f r { v.sched l with pointer := (k + 1) % 64 }) ∧
        ((∀ k < 64, ∀ g, ¬ slot h.shadow k g) → consider l s = applyActivation l s)) ∧
      ((∀ p < 64, ∀ g, ¬ slot h.active p g) → h.activation = false → consider l s = s)) ∧
    ((∀ f < 128, ¬ s.mayGrant l f) →
      h.activation = false ∨ (∃ f < 128, (s.flow f).link = l ∧ (s.flow f).queue ≠ []) → consider l s = s) ∧
    ((∀ f < 128, (s.flow f).link = l → (s.flow f).queue = []) → h.activation = true →
      consider l s = applyActivation l s) ∧
    ∀ tag before after, s.owes { operation := .activateCalendar l, tag := tag } before after →
      applyActivation l s = adminComplete tag 0x31 .ok 0 ((s.setSched l
        { h with active := h.shadow, pointer := 0, activation := false }).onAp fun b =>
          { b with outstanding := before ++ after })

/-! ### Transmission (chapter 6) -/

/-- CELL_SENT of an unstopped TRANSMITTING serializer, where no protected memory shows an error (R106, R108, R109):
the cell with its bytes sent and counted; then the next cell where it is filled, STARVED with the underrun timer where
it is not, and after the frame's last cell the GOOD marker, the link end (R113) and what the idle serializer brings,
the end of a drain among it (R79; the order of the admin completions is log entry 34). Elsewhere nothing. What happens
elsewhere is the model's choice (log entry 1), and that a stopped serializer takes no event is read from R18 (log
entry 9, DEDUCED). A cell stands among what was sent from the end of its sending, which is the model's form (log entry
12). -/
def Obligations.CellSentTaken : Prop :=
  ∀ (s : State) (l : Fin 4) (z : Serializer),
    ((s.link l).serializer = none → exec (.cellSent l []) s = .next s) ∧
    ((s.link l).serializer = some z →
      (s.hp.device ≠ .running ∨ z.state ≠ .transmitting ∨ z.stopped = true → exec (.cellSent l []) s = .next s) ∧
      (s.hp.device = .running → s.eccClean → z.state = .transmitting → z.stopped = false →
        (s.frame z.record).state = .sending →
        let f := s.frame z.record
        let n := if z.sent + 1 = f.cellCount then f.length - 256 * z.sent else 256
        let cell := s.send l (.cell ((List.range n).map (s.cellByte z.nextCell)))
        let w := { z with sent := z.sent + 1, nextCell := (s.linkEntry z.nextCell).getD z.nextCell }
        (z.sent + 1 ≠ z.cellCount →
          (z.sent + 1 < z.filled → exec (.cellSent l []) s = .next
            ((cell.setFrame z.record { f with sent := f.sent + 1 }).setLink l
              { s.link l with serializer := some { w with timer := none } })) ∧
          (z.filled ≤ z.sent + 1 → exec (.cellSent l []) s = .next
            ((cell.setFrame z.record { f with sent := f.sent + 1 }).setLink l
              { s.link l with serializer := some { w with state := .starved, timer := some 20 } }))) ∧
        (z.sent + 1 = z.cellCount →
          let good := (cell.send l (.endMarker true)).setLink l { s.link l with serializer := none }
          let left := fun (v : State) (state : FrameState) =>
            (v.setFrame z.record { f with sent := f.sent + 1, linkEnded := true, state := state }).setFlow f.flow
              { s.flow f.flow with queue := (s.flow f.flow).queue.erase z.record }
          ∃ t, exec (.cellSent l []) s = .next t ∧
            (f.fetchEnded = false → (left good .closing).frameEndLeads l t) ∧
            (f.fetchEnded = true → (retire z.record (left good .sending)).frameEndLeads l t))))

/-- The ABORT ends of a frame (R108, R110, R111, R113), where no protected memory shows an error:
UNDERRUN_TIMER_EXPIRY of a STARVED serializer with cause UNDERRUN, and an ABORT_ORDER for the record it sends with
cause FETCH_ABORTED. The marker is sent, the credit of the unsent cells restored up to the announced credit, the
record out of its queue, retired where its fetch has ended and CLOSING where not, and then what the idle serializer
brings (the order of the admin completions is log entry 34). Elsewhere the expiry changes nothing and the order is
used up: outside RUNNING, with the serializer idle, not STARVED, without a timer, or on another record. The list of
abort orders on their way, and what happens elsewhere, are the model's (log entries 1 and 11); that a serializer
stopped by a refused report takes neither is read from R18 (log entry 9, DEDUCED). How much of a cell cut off was sent
is not represented (log entry 12). -/
def Obligations.FramesAborted : Prop :=
  ∀ (s : State) (l : Fin 4) (r : Fin 2048),
    let ended := fun (u : State) (z : Serializer) (cause : FrameCause) (t : State) =>
      let f := s.frame z.record
      let v := (u.send l (.endMarker false)).setLink l { s.link l with
        serializer := none,
        available := tableSet creditUnlisted (s.link l).available z.lane
          (min (s.announced l z.lane) (s.available l z.lane + (z.cellCount - z.sent))) }
      let left := fun state : FrameState =>
        (v.setFrame z.record { f with
          linkEnded := true, cause := (if f.cause = none then some cause else f.cause), state := state }).setFlow f.flow
            { s.flow f.flow with queue := (s.flow f.flow).queue.erase z.record }
      (f.state = .sending → f.fetchEnded = false → (left .closing).frameEndLeads l t) ∧
      (f.state = .sending → f.fetchEnded = true → (retire z.record (left .sending)).frameEndLeads l t)
    let taken := s.onLu fun b => { b with aborts := b.aborts.erase (l.val, r.val) }
    (∀ z, (s.link l).serializer = some z → s.hp.device = .running → s.eccClean → z.stopped = false →
      (z.state = .starved → z.timer.isSome = true →
        ∃ t, exec (.underrunTimerExpiry l) s = .next t ∧ ended s z .underrun t) ∧
      ((l.val, r.val) ∈ s.lu.aborts → z.record = r.val →
        ∃ t, exec (.abortOrder l r) s = .next t ∧ ended taken z .fetchAborted t)) ∧
    (s.hp.device ≠ .running ∨ (s.link l).serializer = none ∨ (∃ z, (s.link l).serializer = some z ∧
        (z.state ≠ .starved ∨ z.timer = none ∨ z.stopped = true)) →
      exec (.underrunTimerExpiry l) s = .next s) ∧
    ((l.val, r.val) ∉ s.lu.aborts → exec (.abortOrder l r) s = .next s) ∧
    ((l.val, r.val) ∈ s.lu.aborts →
      s.hp.device ≠ .running ∨ (s.link l).serializer = none ∨ (∃ z, (s.link l).serializer = some z ∧
        (z.record ≠ r.val ∨ z.stopped = true)) →
      exec (.abortOrder l r) s = .next taken)

/-- The checks of the protected memories (R17, R155). A read of sound bits changes nothing; a one-bit error is
corrected, written back and reported, and the event, a fetch end or an arbitration (R87) for one, goes on as on the
corrected memory; an uncorrectable one is reported with its fatal cause. A cell's check covers the bytes that are sent
and reports each correction; what is written gets fresh check bits. Disturbances arrive with the five rows that read
the memories, and the worse of two conditions stands; that form, and the list of reports on their way, are the model's
(log entries 4 and 5). That an arbitration reads the heads of the queues of all flows, in rising flow number, wherever
a queue of the link is not empty, though no flow be eligible, and passes over one found uncorrectable before, is the
model's reading of R17, R18 and R87 (log entry 7, DEDUCED). That cell data is checked byte by byte over the bytes
sent, with a report for each byte corrected, is the model's choice (log entry 35). -/
def Obligations.ProtectedReadsChecked : Prop :=
  ∀ s : State,
    let record := fun (t : State) r => tableGet eccUnlisted t.bm.frameEcc r
    let entry := fun (t : State) c => tableGet eccUnlisted t.bm.linkEcc c
    let byte := fun (t : State) a => tableGet eccUnlisted t.bm.cellEcc a
    let report := fun (rs : List EccReport) (t : State) => t.onEc fun b => { b with reports := b.reports ++ rs }
    let worse := fun (severe : Bool) (x : Ecc) =>
      if severe = true ∨ x = .uncorrectable then Ecc.uncorrectable else .oneBit
    (∀ (us : List Upset) (i : Fin 8) (x : BitVec 512) (xs : List Byte) (r : Fin 2048) (l : Fin 4),
      let t := strike us s
      exec (.retry us) s = exec (.retry []) t ∧ exec (.descriptorReadReturn i x us) s = exec (.descriptorReadReturn i x []) t ∧
      exec (.payloadReadReturn i xs us) s = exec (.payloadReadReturn i xs []) t ∧
      exec (.fetchEnd r us) s = exec (.fetchEnd r []) t ∧ exec (.cellSent l us) s = exec (.cellSent l []) t ∧
      ∃ a b c, t = s.onBm fun m => { m with cellEcc := a, linkEcc := b, frameEcc := c }) ∧
    (∀ (c : Fin 8192) (o : Fin 256) (r : Fin 2048) (severe : Bool) (n : Nat),
      byte (strike [.cellByte c o severe] s) n =
        (if n = 256 * c.val + o.val then worse severe (byte s n) else byte s n) ∧
      entry (strike [.linkEntry c severe] s) n = (if n = c.val then worse severe (entry s n) else entry s n) ∧
      record (strike [.frameRecord r severe] s) n = (if n = r.val then worse severe (record s n) else record s n)) ∧
    (∀ r,
      (record s r = .valid → checkRecord r s = (true, s)) ∧
      (record s r = .oneBit → ∃ t, checkRecord r s = (true, report [.correction .frameTable] t) ∧
        t = s.onBm (fun b => { b with frameEcc := t.bm.frameEcc }) ∧ record t r = .valid ∧
        ∀ n, n ≠ r → record t n = record s n) ∧
      (record s r = .uncorrectable → checkRecord r s = (false, report [.fatal .frameTableUncorrectable] s))) ∧
    (∀ c,
      (entry s c = .valid → checkLink c s = (true, s)) ∧
      (entry s c = .oneBit → ∃ t, checkLink c s = (true, report [.correction .linkTable] t) ∧
        t = s.onBm (fun b => { b with linkEcc := t.bm.linkEcc }) ∧ entry t c = .valid ∧
        ∀ n, n ≠ c → entry t n = entry s n) ∧
      (entry s c = .uncorrectable → checkLink c s = (false, report [.fatal .linkTableUncorrectable] s))) ∧
    (∀ c n, tableWf eccUnlisted s.bm.cellEcc = true →
      let corrected := (List.range n).filter fun o => decide (byte s (256 * c + o) = .oneBit)
      ((checkCell c n s).1 = true ↔ ∀ o < n, byte s (256 * c + o) ≠ .uncorrectable) ∧
      ∃ t, (checkCell c n s).2 = report (corrected.map fun _ => .correction .cellData) t ∧
        t = s.onBm (fun b => { b with cellEcc := t.bm.cellEcc }) ∧
        ∀ a, byte t a =
          if 256 * c ≤ a ∧ a < 256 * c + n ∧ byte s a = .oneBit then Ecc.valid else byte s a) ∧
    (∀ (r : Fin 2048) (ok : Bool) (before after : List (Nat × Bool)), s.hp.device = .running →
      s.bm.fetchEnds = before ++ (r.val, ok) :: after → record s r = .oneBit →
      exec (.fetchEnd r []) s = exec (.fetchEnd r []) (checkRecord r s).2) ∧
    (∀ (l : Nat) (before after : List Nat) (r : Nat), s.hp.device = .running → (s.link l).state = .active →
      (s.link l).serializer = none → (∃ f < 128, (s.flow f).link = l ∧ (s.flow f).queue ≠ []) →
      (List.range 128).filterMap (fun f => (s.flow f).queue.head?) = before ++ r :: after →
      (∀ q ∈ before, record s q = .valid) → record s r = .oneBit → r ∉ s.es.stopped →
      consider l s = consider l (checkRecord r s).2) ∧
    ∀ (c o : Nat) (x : Byte) (d : Option Nat),
      byte (s.setCellByte c o x) (256 * c + o) = .valid ∧ entry (s.setLinkEntry c d) c = .valid ∧
      (∀ a, a ≠ 256 * c + o → byte (s.setCellByte c o x) a = byte s a) ∧
      ∀ n, n ≠ c → entry (s.setLinkEntry c d) n = entry s n

/-- An uncorrectable frame record or link entry (R18, R155): the event that met it is not carried out, and the fatal
error is reported. A fetch end leaves the record as it was; an admission, at a descriptor's return or a retry, gets no
answer; a payload read's bytes end at the cell whose link entry is bad, and the fetch slot reads no further, while a
completed cell that is the head's goes to the LU or the ES as ever (R14, R107); a cell-sent report, whose cell has
been sent, leaves the record, and the serializer stops with its fields as they stood; an end of a frame on the link
leaves it likewise; a FLUSH_FLOW is completed ABORTED with its flow as it was; an arbitration that reads a bad head
makes no grant. What the part does between the report and its containment is read from R18 (log entries 6, 7, 8 and 9,
DEDUCED); the fill position (log entry 10) and the lists of reports and of fetch ends on their way (log entries 5 and
11) are the model's. That an entry marked yes whose retry got no answer does not bar the retry of a later one is the
model's choice (log entry 33). A cell stands among what was sent from the end of its sending, which is the model's
form (log entry 12). -/
def Obligations.UncorrectableEventsRefused : Prop :=
  ∀ s : State,
    let record := fun r => tableGet eccUnlisted s.bm.frameEcc r
    let entry := fun c => tableGet eccUnlisted s.bm.linkEcc c
    let report := fun (cause : FatalCause) (t : State) => t.onEc fun b => { b with reports := b.reports ++ [.fatal cause] }
    let room := fun (d : Descriptor) (need q : Nat) => (s.flow d.flow).state = .enabled ∧
      (s.flow d.flow).held + need ≤ (s.flow d.flow).cap ∧ need ≤ s.bm.freeCount ∧ s.bm.freeRecords.head? = some q
    let bad := fun (need q : Nat) (cause : FatalCause) =>
      (record q = .uncorrectable ∧ cause = .frameTableUncorrectable) ∨
      (record q = .valid ∧ cause = .linkTableUncorrectable ∧ ∃ (cells before after : List Nat) (c : Nat),
        cells.length = need ∧ s.bm.freeHead = cells.head? ∧
        (∀ j, j + 1 < need → s.linkEntry (cells.getD j 0) = cells[j + 1]?) ∧
        cells.take (if need < s.bm.freeCount then need else need - 1) = before ++ c :: after ∧
        (∀ x ∈ before, entry x = .valid) ∧ entry c = .uncorrectable)
    let stops := fun (l : Nat) (z : Serializer) (t : State) =>
      t.setLink l { s.link l with serializer := some { z with stopped := true } }
    s.hp.device = .running →
    (∀ (r : Fin 2048) (ok : Bool) (before after : List (Nat × Bool)), s.bm.fetchEnds = before ++ (r.val, ok) :: after →
      (∀ x ∈ before, x.1 ≠ r.val) → record r = .uncorrectable → exec (.fetchEnd r []) s =
        .next (report .frameTableUncorrectable (s.onBm fun b => { b with fetchEnds := before ++ after }))) ∧
    (∀ (i : Fin 8) (n k q : Nat) (x : BitVec 512) (cause : FatalCause), s.slot i = .descRead n k →
      awaitsResponse s i = true → (s.sq n).state = .active → s.accepts (decodeDescriptor x) →
      let need := ((decodeDescriptor x).length + 255) / 256
      room (decodeDescriptor x) need q → bad need q cause →
      exec (.descriptorReadReturn i x []) s = .next (report cause (s.setRead i none))) ∧
    (∀ (before after : List HeldEntry) (e : HeldEntry) (h : HeldCopy) (i q : Nat) (cause : FatalCause), i < 8 →
      s.slot i = .idle → s.dfu.held = before ++ e :: after → (∀ x ∈ before, x.ready = false ∨ x.stopped = true) →
      e.ready = true → e.stopped = false → (s.sq e.ring).held = some h → 1 ≤ h.need →
      room h.descriptor h.need q → bad h.need q cause →
      exec (.retry []) s = .next ((report cause s).onDfu fun b => { b with
        held := b.held.map fun x => if x.ring = e.ring then { x with stopped := true } else x })) ∧
    (∀ (i : Fin 8) (n r j off : Nat) (gs : List Segment) (e : HostRead) (xs : List Byte),
      s.slot i = .payload n r gs j off → s.read i = some e → e.cutOff = false → xs.length = e.length →
      let f := s.frame r
      (record r = .uncorrectable →
        exec (.payloadReadReturn i xs []) s = .next (report .frameTableUncorrectable (s.setRead i none))) ∧
      (record r = .valid → entry f.fillCell = .uncorrectable → f.state = .filling ∨ f.state = .sending →
        f.fillOffset < 256 → 256 ≤ f.fillOffset + xs.length → 256 * (f.filled + 1) < f.length →
        f.filled + 1 < f.cellCount →
        ∃ t,
          (∀ k, f.fillOffset + k < 256 → t.cellByte f.fillCell (f.fillOffset + k) = xs.getD k 0) ∧
          (∀ c, ∀ o < 256, ¬ (c = f.fillCell ∧ f.fillOffset ≤ o) → t.cellByte c o = s.cellByte c o) ∧
          t.frame r = { f with filled := f.filled + 1, fillOffset := 0 } ∧ (∀ q, q ≠ r → t.frame q = s.frame q) ∧
          t.dfu = s.dfu ∧ t.read i = none ∧ (∀ m, m ≠ i.val → t.read m = s.read m) ∧ t.hp.out = s.hp.out ∧
          t.bm.fetchEnds = s.bm.fetchEnds ∧ t.bm.links = s.bm.links ∧ t.bm.flows = s.bm.flows ∧ t.lu = s.lu ∧
          t.es = s.es ∧ t.cu = s.cu ∧ t.ap = s.ap ∧ t.ec = (report .linkTableUncorrectable s).ec ∧
          let l := (s.flow f.flow).link
          let k := s.link l
          let head := (s.flow f.flow).queue.head? = some r
          let run := fun u : State => exec (.payloadReadReturn i xs []) s = .next u
          (¬ head → run t) ∧
          (head → f.state = .filling →
            (k.serializer ≠ none ∨ (k.state ≠ .active ∧ k.state ≠ .draining) → run t) ∧
            (k.serializer = none → k.state = .active → run (consider l t))) ∧
          (head → f.state = .sending → ∀ z, k.serializer = some z →
            (z.record ≠ r ∨ z.stopped = true → run t) ∧
            (z.record = r → z.stopped = false →
              (z.state = .transmitting →
                run (t.setLink l { k with serializer := some { z with filled := f.filled + 1 } })) ∧
              (z.state = .starved → s.bm.cellEcc = [] →
                run (t.setLink l { k with
                  serializer := some { z with filled := f.filled + 1, state := .transmitting, timer := none } })))))) ∧
    (∀ (l : Fin 4) (z : Serializer), (s.link l).serializer = some z → z.stopped = false →
      let f := s.frame z.record
      let n := if z.sent + 1 = f.cellCount then f.length - 256 * z.sent else 256
      let sent := s.send l (.cell ((List.range n).map (s.cellByte z.nextCell)))
      (z.state = .transmitting → record z.record = .uncorrectable →
        exec (.cellSent l []) s = .next (stops l z (report .frameTableUncorrectable sent))) ∧
      (z.state = .transmitting → record z.record = .valid → z.sent + 1 ≠ z.cellCount →
        entry z.nextCell = .uncorrectable →
        exec (.cellSent l []) s = .next (stops l z (report .linkTableUncorrectable sent))) ∧
      (record z.record = .uncorrectable →
        let t := stops l z (report .frameTableUncorrectable s)
        (z.state = .starved → z.timer.isSome = true → exec (.underrunTimerExpiry l) s = .next t) ∧
        ((s.link l).state = .active ∨ (s.link l).state = .draining →
          exec (.malformedMessage l) s = .next t ∧ ∀ x, exec (.down l x) s = .next t))) ∧
    (∀ (tag flow : BitVec 16) (before after : List Nat) (r : Nat), s.commandArrives → flow.toNat ≤ 127 →
      (s.flow flow.toNat).state = .enabled ∨ (s.flow flow.toNat).state = .disabled →
      (s.flow flow.toNat).queue = before ++ r :: after → (∀ q ∈ before, record q = .valid) →
      record r = .uncorrectable → exec (.flushFlow tag flow) s =
        .next ((report .frameTableUncorrectable s.atDecision).answered tag 0x13 .aborted 0)) ∧
    ∀ (l : Nat) (before after : List Nat) (r : Nat), (s.link l).state = .active → (s.link l).serializer = none →
      (∃ f < 128, (s.flow f).link = l ∧ (s.flow f).queue ≠ []) →
      (List.range 128).filterMap (fun f => (s.flow f).queue.head?) = before ++ r :: after →
      (∀ q ∈ before, record q = .valid ∨ q ∈ s.es.stopped) → r ∉ s.es.stopped → record r = .uncorrectable →
      consider l s = (report .frameTableUncorrectable s).onEs fun b => { b with stopped := r :: b.stopped }

/-- A cell with an uncorrectable byte among those to be sent (R106, R110, R112): wherever its sending would begin,
none of it is sent, and the frame ends ABORT with DATA_ERROR, the EC told of the link and the cell. After a CELL_SENT:
the cell before it sent and counted, the marker, the credit of the unsent cells restored up to the announced credit,
the record out of its queue, retired where its fetch has ended and CLOSING where not (R113), and then what the idle
serializer brings, the end of a drain among it (R79). That the admin completions of the retirement come before those
of what the idle serializer brings is the model's choice (log entry 34). A cell without an error begins: TRANSMITTING
with the timer stopped. The list of reports on their way is the model's (log entry 5). A cell stands among what was
sent from the end of its sending, which is the model's form (log entry 12). That cell data is checked byte by byte
over the bytes sent, and that any number of uncorrectable bytes makes one report, is the model's choice (log entry
35). -/
def Obligations.BadCellEndsFrame : Prop :=
  ∀ (s : State) (l : Fin 4) (z : Serializer), (s.link l).serializer = some z →
    tableWf eccUnlisted s.bm.cellEcc = true →
    let f := s.frame z.record
    let bytes := fun k => if k + 1 = f.cellCount then f.length - 256 * k else 256
    let mark := fun c o => tableGet eccUnlisted s.bm.cellEcc (256 * c + o)
    let bad := fun c n => (∃ o < n, mark c o = .uncorrectable) ∧ ∀ o < n, mark c o ≠ .oneBit
    let told := fun (c : Nat) (t : State) => t.onEc fun b => { b with reports := b.reports ++ [.cellData l c] }
    (bad z.nextCell (bytes z.sent) → beginCell l s = abortFrame l .dataError (told z.nextCell s)) ∧
    ((∀ o < bytes z.sent, mark z.nextCell o = .valid) →
      beginCell l s = s.setLink l { s.link l with serializer := some { z with state := .transmitting, timer := none } }) ∧
    (s.hp.device = .running → z.state = .transmitting → z.stopped = false → f.state = .sending →
      tableGet eccUnlisted s.bm.frameEcc z.record = .valid → tableGet eccUnlisted s.bm.linkEcc z.nextCell = .valid →
      z.sent + 1 ≠ z.cellCount → z.sent + 1 < z.filled → ∀ d, s.linkEntry z.nextCell = some d →
      bad d (bytes (z.sent + 1)) →
      let cell := s.send l (.cell ((List.range (bytes z.sent)).map (s.cellByte z.nextCell)))
      let v := ((told d cell).send l (.endMarker false)).setLink l { s.link l with
        serializer := none,
        available := tableSet creditUnlisted (s.link l).available z.lane
          (min (s.announced l z.lane) (s.available l z.lane + (z.cellCount - (z.sent + 1)))) }
      let left := fun state : FrameState =>
        (v.setFrame z.record { f with
          sent := f.sent + 1, linkEnded := true, cause := (if f.cause = none then some .dataError else f.cause),
          state := state }).setFlow f.flow
            { s.flow f.flow with queue := (s.flow f.flow).queue.erase z.record }
      ∃ t, exec (.cellSent l []) s = .next t ∧
        (f.fetchEnded = false → (left .closing).frameEndLeads l t) ∧
        (f.fetchEnded = true → (retire z.record (left .sending)).frameEndLeads l t))

/-! ### Errors, containment and resets (chapters 9 and 10) -/

/-- CORRECTION_REPORT and CELL_DATA_ERROR_REPORT (R156, R157): in RUNNING and FAILED a correction raises the count of
its memory, and at the threshold raises CORRECTABLE_LIMIT with the count and returns it to 0; each cell-data error
raises its notice; in the other states they are discarded. The list of reports on their way is the model's (log entry
5). SET_ERROR_POLICY (R148): a value from 1 to 65535 replaces the threshold of all three memories and nothing else; any
other gives BAD_PARAMETER; a self-reset keeps the threshold, and a function reset and power-on return it to 256. -/
def Obligations.ErrorPolicyAndReports : Prop :=
  (∀ (s : State) (m : ProtectedMemory) (l : Fin 4) (c : Fin 8192),
     let counted := fun n => s.onEc fun b =>
       let x := { b with reports := b.reports.erase (.correction m) }
       match m with
       | .cellData => { x with cellDataCount := n }
       | .linkTable => { x with linkTableCount := n }
       | .frameTable => { x with frameTableCount := n }
     let n := match m with
       | .cellData => s.ec.cellDataCount | .linkTable => s.ec.linkTableCount | .frameTable => s.ec.frameTableCount
     let gone := fun r => s.onEc fun b => { b with reports := b.reports.erase r }
     (s.hp.device = .running ∨ s.hp.device = .failed →
       (n + 1 < s.ec.threshold → exec (.correctionReport m) s = .next (counted (n + 1))) ∧
       (s.ec.threshold ≤ n + 1 → exec (.correctionReport m) s =
         .next (raiseNotice (.correctableLimit m (n + 1)) (counted 0))) ∧
       exec (.cellDataErrorReport l c) s = .next (raiseNotice (.cellDataError l c) (gone (.cellData l c)))) ∧
     (s.hp.device = .stopped ∨ s.hp.device = .selfResetting ∨ s.hp.device = .resetting →
       exec (.correctionReport m) s = .next (gone (.correction m)) ∧
       exec (.cellDataErrorReport l c) s = .next (gone (.cellData l c)))) ∧
  ∀ (s : State) (tag : BitVec 16) (threshold : Word32),
    (s.commandArrives →
      (1 ≤ threshold.toNat ∧ threshold.toNat ≤ 65535 → exec (.setErrorPolicy tag threshold) s = .next
        ((s.atDecision.onEc fun b => { b with threshold := threshold.toNat }).answered tag 0x40 .ok 0)) ∧
      (threshold.toNat = 0 ∨ 65535 < threshold.toNat →
        exec (.setErrorPolicy tag threshold) s = .next (s.atDecision.answered tag 0x40 .badParameter 0))) ∧
    (∃ t, exec .selfResetCompletion s = .next t ∧ t.ec.threshold = s.ec.threshold) ∧
    (s.hp.device = .resetting → readsEmpty s = true →
      ∃ t, exec .functionResetCompletion s = .next t ∧ t.ec.threshold = 256) ∧
    ∃ t, exec .powerOn s = .next t ∧ t.ec.threshold = 256

/-- FATAL_REPORT (R158 to R161, R163, R85, R132): in RUNNING the cause is stored and the device goes to FAILED, under
HALT or HALT_LINKS_DOWN, or to SELF_RESETTING, which ends at once where no read is outstanding; a later one sets
MULTIPLE; in STOPPED and RESETTING it is discarded. An end marker is sent in ACTIVE and DRAINING only, and not for a
frame that a failure has cut short (R69; such a serializer is log entry 9, DEDUCED). The lists of reports on their way
are the model's (log entries 5 and 11). The order of the messages of different links is the model's choice (log entry
36). -/
def Obligations.FatalErrorContained : Prop :=
  ∀ (s : State) (cause : FatalCause),
    let gone := s.onEc fun b => { b with reports := b.reports.erase (.fatal cause) }
    let down := fun l => (s.link l).state ≠ .disabled
    let quiet := fun l => { s.link l with serializer := none, offerTimer := none, linkUpTimer := none }
    let sent := fun downs : Bool => ([0, 1, 2, 3].map fun l =>
      (match (s.link l).serializer with
        | some z =>
          if z.lost = false ∧ ((s.link l).state = .active ∨ (s.link l).state = .draining) then
            [(l, LinkMessage.endMarker false)]
          else []
        | none => []) ++
      (if downs = true ∧ down l then [(l, LinkMessage.down l)] else [])).flatten
    let stopped := fun (t : State) (downs : Bool) =>
      t.bm = { s.bm with fetchEnds := [] } ∧ t.dfu = s.dfu ∧ t.ap = s.ap ∧ t.es.schedulers = s.es.schedulers ∧
      t.lu.out = s.lu.out ++ sent downs ∧ ∀ n < 16, t.cq n = { s.cq n with timer := none }
    let failed := raiseNotice (.fatalError (some cause))
      ((gone.onEc fun b => { b with fatalCause := some cause }).onHp fun b => { b with device := .failed })
    let lost := [0, 1, 2, 3].foldl (fun v l => if down l then raiseNotice (.linkFailed l .containment) v else v) failed
    (s.hp.device = .stopped ∨ s.hp.device = .resetting → exec (.fatalReport cause) s = .next gone) ∧
    (s.hp.device = .failed ∨ s.hp.device = .selfResetting →
      exec (.fatalReport cause) s = .next (gone.onEc fun b => { b with multiple := true })) ∧
    (s.hp.device = .running →
      (s.hp.mode = .halt → ∃ t, exec (.fatalReport cause) s = .next t ∧ stopped t false ∧ t.hp = failed.hp ∧
        t.ec = failed.ec ∧ ∀ l < 4, t.link l = quiet l) ∧
      (s.hp.mode = .haltLinksDown → ∃ t, exec (.fatalReport cause) s = .next t ∧ stopped t true ∧ t.hp = lost.hp ∧
        t.ec = lost.ec ∧ ∀ l < 4, (down l → t.link l = { quiet l with
          announced := [], available := [], state := .failed, cause := some .containment }) ∧
          (¬ down l → t.link l = quiet l)) ∧
      (s.hp.mode = .selfReset → ∃ w : State, stopped w true ∧ w.hp = { s.hp with device := .selfResetting } ∧
        w.ec = { gone.ec with fatalCause := some cause } ∧ (∀ l < 4, w.link l = quiet l) ∧
        ((∃ i < 9, s.read i ≠ none) → exec (.fatalReport cause) s = .next w) ∧
        ((∀ i < 9, s.read i = none) → exec (.fatalReport cause) s = exec .selfResetCompletion w)))

/-- SELF_RESET_COMPLETION and FUNCTION_RESET_COMPLETION (R162, R163, R164, R174): with no read outstanding the datapath,
or the whole part, is at its reset values; a self-reset returns to RUNNING with the outstanding commands ABORTED and
SELF_RESET_DONE, or, with MULTIPLE set, ends in FAILED with FATAL_ERROR. Elsewhere nothing changes. What happens
elsewhere, and that what was sent stays sent, are the model's choices (log entries 1 and 12). -/
def Obligations.ResetsComplete : Prop :=
  ∀ s : State,
    let cleared := fun device : DeviceState => { s with
      bm := BmBlock.reset, dfu := DfuBlock.reset, es := EsBlock.reset, cu := CuBlock.reset,
      lu := { LuBlock.reset with out := s.lu.out }, hp := { s.hp with device := device, reads := [], latch := false },
      ec := { s.ec with cellDataCount := 0, linkTableCount := 0, frameTableCount := 0 } }
    ((∀ i < 9, s.read i = none) →
      (s.hp.device = .selfResetting → s.ec.multiple = true → exec .selfResetCompletion s =
        .next (raiseNotice (.fatalError s.ec.fatalCause) (cleared .failed))) ∧
      (s.hp.device = .selfResetting → s.ec.multiple = false →
        let aborted := (s.ap.outstanding.foldl (fun v e => adminComplete e.tag e.operation.kind .aborted 0 v)
          (cleared .running)).onAp fun b => { b with outstanding := [] }
        exec .selfResetCompletion s = .next (startCommandRead
          ((raiseNotice (.selfResetDone s.ec.fatalCause) aborted).onEc fun b => { b with fatalCause := none }))) ∧
      (s.hp.device = .resetting → exec .functionResetCompletion s = .next { State.reset with
        hp := { HpBlock.reset with out := s.hp.out }, lu := { LuBlock.reset with out := s.lu.out },
        pending := s.pending })) ∧
    (s.hp.device ≠ .selfResetting ∨ (∃ i < 9, s.read i ≠ none) → exec .selfResetCompletion s = .next s) ∧
    (s.hp.device ≠ .resetting ∨ (∃ i < 9, s.read i ≠ none) → exec .functionResetCompletion s = .next s)

/-- FLUSH_END, DELETION_END and DRAIN_END (R37, R64, R79) where the end's condition holds, with the completion of the
long command; elsewhere nothing changes. The rows' own events are the model's choice (log entries 1 and 18). A count
of flushed frames cut to its field's width is the model's form (log entry 28). -/
def Obligations.LongCommandsEnd : Prop :=
  ∀ (s : State) (f : Fin 128) (n : Fin 32) (l : Fin 4) (tag : BitVec 16) (before after : List Outstanding),
    let c := s.flow f
    let without := fun v : State => v.onAp fun b => { b with outstanding := before ++ after }
    (s.hp.device = .running →
      (c.state = .flushing → c.held = 0 → s.owes { operation := .flushFlow f, tag := tag } before after →
        exec (.flushEnd f) s = .next (adminComplete tag 0x13 .ok (c.flushed % 65536)
          (without (s.setFlow f { c with state := .disabled })))) ∧
      ((s.sq n).state = .deleting → (s.sq n).inFlight = 0 →
        s.owes { operation := .deleteSq n, tag := tag } before after →
        exec (.deletionEnd n) s = .next (adminComplete tag 0x02 .ok 0 (without (s.setSq n SqContext.reset)))) ∧
      ((s.link l).state = .draining → (s.link l).serializer = none → (s.link l).outstanding = some .disable →
        s.owes { operation := .disableLink l, tag := tag } before after →
        exec (.drainEnd l) s = .next (adminComplete tag 0x21 .ok 0 (without ((s.send l (.down l)).setLink l
          { s.link l with state := .disabled, announced := [], available := [], outstanding := none }))))) ∧
    (s.hp.device ≠ .running ∨ c.state ≠ .flushing ∨ c.held ≠ 0 → exec (.flushEnd f) s = .next s) ∧
    (s.hp.device ≠ .running ∨ (s.sq n).state ≠ .deleting ∨ (s.sq n).inFlight ≠ 0 →
      exec (.deletionEnd n) s = .next s) ∧
    (s.hp.device ≠ .running ∨ (s.link l).state ≠ .draining ∨ (s.link l).serializer ≠ none →
      exec (.drainEnd l) s = .next s)

/-! ### Laws that every step keeps -/

/-- The laws hold in the state after power-on: of credit (R71), of the serializers (R67, R69), of the backlog (R167), of
the free record list (R8, R9), of the cell pool (R4), of the flow queues and cells held (R22, R24), of the in-flight
limit (R48), of what the counts of descriptors count (R39, R61, R121), of the completion rings (R120) and of the admin
completion ring (R136). The canonical form of the cell memory is the model's (log entry 28). -/
def Obligations.LawsHoldAtReset : Prop :=
  State.reset.memoryForm ∧ State.reset.creditLaw ∧ State.reset.serializerLaw ∧ State.reset.backlogLaw ∧
    State.reset.recordLaw ∧ State.reset.poolLaw ∧ State.reset.queueLaw ∧ State.reset.limitLaw ∧ State.reset.descriptorLaw ∧
    State.reset.completionRingLaw ∧ State.reset.acrLaw

/-- Every step keeps the canonical form of the cell data memory, which is the model's (log entry 28), every step keeps
the law of the backlog (R167), and every step keeps the law of credit (R71): available at most announced on every lane,
and zero on a link that is DISABLED, AWAIT_PARTNER or FAILED. -/
def Obligations.MemoryBacklogAndCreditKept : Prop :=
  ∀ s t : State, step s = .next t →
    (s.memoryForm → t.memoryForm) ∧ (s.backlogLaw → t.backlogLaw) ∧ (s.creditLaw → t.creditLaw)

/-- Every step keeps the law of the serializers (R67, R69): a busy one stands on an ACTIVE or a DRAINING link, but for a
stopped one whose frame a failure has cut short (log entry 9, DEDUCED). Where it holds, a step sends the header, the
cells and the end marker of a frame only on a link that it finds ACTIVE or DRAINING or that it makes ACTIVE, and OFFER
only in AWAIT_PARTNER (R69). That what was sent stays sent but for a power-on is the model's (log entry 12). -/
def Obligations.FramePartsOnLiveLinks : Prop :=
  ∀ s t : State, s.serializerLaw → step s = .next t → t.serializerLaw ∧
    (t.lu.out = [] ∨ ∃ x, t.lu.out = s.lu.out ++ x ∧ ∀ l m, (l, m) ∈ x →
      (m.framePart → s.carries l ∨ (t.link l).state = .active) ∧
      ∀ n, m = .offer n → (t.link l).state = .awaitPartner)

/-- Every step keeps the law of the free record list (R8, R9). -/
def Obligations.RecordLawKept : Prop := ∀ s t : State, s.recordLaw → step s = .next t → t.recordLaw

/-- Every step keeps the law of the cell pool (R2, R3, R4), where the law of the free record list holds. -/
def Obligations.PoolLawKept : Prop := ∀ s t : State, s.recordLaw → s.poolLaw → step s = .next t → t.poolLaw

/-- Every step keeps the law of the flow queues and of cells held (R22, R24), where the law of the free record list
holds; and it keeps the order of admission: a record joins a queue at the tail only, from FREE, at most one in a step,
and the records that stay keep their order. -/
def Obligations.FlowQueueLawKept : Prop :=
  ∀ s t : State, s.recordLaw → step s = .next t →
    (s.queueLaw → t.queueLaw) ∧
    ∀ f, ∃ joined : List Nat, joined.length ≤ 1 ∧ (∀ r ∈ joined, (s.frame r).state = .free) ∧
      ((t.flow f).queue).Sublist ((s.flow f).queue ++ joined)

/-- Every step keeps the in-flight limit of every submission ring (R48); and, where the law of the free record list
holds, every step keeps what the in-flight and the reserved counts count (R39, R61, R121). -/
def Obligations.DescriptorLawKept : Prop :=
  ∀ s t : State, step s = .next t →
    (s.limitLaw → t.limitLaw) ∧ (s.recordLaw → s.descriptorLaw → t.descriptorLaw)

/-- Every step keeps the law of the completion rings (R120), where the laws of the free record list and of the
descriptor counts hold. -/
def Obligations.CompletionRingLawKept : Prop :=
  ∀ s t : State, s.recordLaw → s.descriptorLaw → s.completionRingLaw → step s = .next t → t.completionRingLaw

/-- Every step keeps the law of the admin completion ring (R136). -/
def Obligations.AcrLawKept : Prop := ∀ s t : State, s.acrLaw → step s = .next t → t.acrLaw

/-- FAILED is quiet (R151, R159, R160, R163): a command that finds and leaves the device in FAILED changes no cell, link
entry, record, flow, ring, link, calendar or completion ring, none of the registers RUN and the six system ring
registers, sends nothing on a link and starts no read; only notices and their messages go to the host, the fatal cause
stands, and MULTIPLE, once set, stays. The containment mode may change (R172), and so may the NR's positions and its
consumer index (R168). -/
def Obligations.FailedDeviceStaysQuiet : Prop :=
  ∀ (c : Instr) (s t : State), s.hp.device = .failed → exec c s = .next t → t.hp.device = .failed →
    t.bm.cells = s.bm.cells ∧ t.bm.links = s.bm.links ∧ t.bm.freeHead = s.bm.freeHead ∧
    t.bm.freeTail = s.bm.freeTail ∧ t.bm.freeCount = s.bm.freeCount ∧ t.bm.frames = s.bm.frames ∧
    t.bm.freeRecords = s.bm.freeRecords ∧ t.bm.flows = s.bm.flows ∧
    t.dfu.rings = s.dfu.rings ∧ t.dfu.held = s.dfu.held ∧ t.dfu.lastRing = s.dfu.lastRing ∧
    (∀ i, t.slot i = s.slot i ∨ t.slot i = .idle) ∧ (∀ i, t.read i = s.read i ∨ t.read i = none) ∧
    t.lu.links = s.lu.links ∧ t.lu.out = s.lu.out ∧ t.es = s.es ∧ t.cu = s.cu ∧
    t.ap = { s.ap with state := t.ap.state } ∧ (t.ap.state = s.ap.state ∨ t.ap.state = .idle) ∧
    t.hp.run = s.hp.run ∧ t.hp.asrBase = s.hp.asrBase ∧ t.hp.asrSize = s.hp.asrSize ∧ t.hp.acrBase = s.hp.acrBase ∧
    t.hp.acrSize = s.hp.acrSize ∧ t.hp.nrBase = s.hp.nrBase ∧ t.hp.nrSize = s.hp.nrSize ∧
    t.ec.threshold = s.ec.threshold ∧ t.ec.fatalCause = s.ec.fatalCause ∧
    (s.ec.multiple = true → t.ec.multiple = true) ∧
    ∃ x : List HostTraffic, t.hp.out = s.hp.out ++ x ∧
      ∀ m ∈ x, m = .interrupt 0 ∨ ∃ a n count phase, m = .write16 a (noticeRecord n count phase)

/-! ### Formats in which commands arrive (chapter 11) -/

/-- The 64 bytes of an admin command and the bytes of a partner message spell the command they were made from, every
operand at every value; bytes that are no READY, CREDIT or DOWN the part can take are a malformed message (R181, R184,
sections 11.4 and 11.8; the byte order inside a message is the model's choice, log entry 19, as is what bytes missing or
left over make of one, log entry 30). The fields of a transmit descriptor stand at the offsets of section 11.2. -/
def Obligations.CommandFormatsRoundTrip : Prop :=
  (∀ (i : Instr) (r : BitVec 512), i.wellFormed = true → encodeAdminCommand i = some r → decodeAdminCommand r = i) ∧
  (∀ (l : Fin 4) (a b c d : BitVec 16) (xs : List Byte), (Instr.ready l a b c d).wellFormed = true →
    encodePartnerMessage (.ready l a b c d) = some xs → decodePartnerMessage l xs = .ready l a b c d) ∧
  (∀ (l : Fin 4) (lane : BitVec 8) (n : BitVec 16) (xs : List Byte), (Instr.credit l lane n).wellFormed = true →
    encodePartnerMessage (.credit l lane n) = some xs → decodePartnerMessage l xs = .credit l lane n) ∧
  (∀ (l : Fin 4) (x : BitVec 8) (xs : List Byte), encodePartnerMessage (.down l x) = some xs →
    decodePartnerMessage l xs = .down l x) ∧
  (∀ (l : Fin 4) (xs : List Byte), (∀ i : Instr, i.wellFormed = true → encodePartnerMessage i ≠ some xs) →
     decodePartnerMessage l xs = .malformedMessage l) ∧
  ∀ x : BitVec 512,
    let field := fun offset width => x.toNat / 256 ^ offset % 256 ^ width
    decodeDescriptor x =
      { kind := field 0 1, segmentCount := field 1 1, flow := field 2 2, tag := BitVec.ofNat 32 (field 4 4),
        length := field 8 4,
        segments := [{ address := field 16 8, length := field 24 4 }, { address := field 28 8, length := field 36 4 },
          { address := field 40 8, length := field 48 4 }, { address := field 52 8, length := field 60 4 }] }
end

