-- ==== Sys2Proof/Laws/Table.lean ====
section
/-! SUPPORT. Laws of tables: an entry read after a write is the entry written, every other entry is as before, and the canonical form is kept. -/

namespace Sys2Proof.Machine

open Sys2Proof

variable {α : Type} (u : Nat → α)

theorem tableGet_erase_same (t : Table α) (i : Nat) : tableGet u (tableErase i t) i = u i := by
  induction t with
  | nil => rfl
  | cons e t ih =>
    obtain ⟨k, v⟩ := e
    by_cases h : k = i <;> simp [tableErase, tableGet, h, ih]

theorem tableGet_erase_ne (t : Table α) {i j : Nat} (h : j ≠ i) : tableGet u (tableErase i t) j = tableGet u t j := by
  induction t with
  | nil => rfl
  | cons e t ih =>
    obtain ⟨k, v⟩ := e
    by_cases hk : k = i
    · subst hk
      simp [tableErase, tableGet, ih, Ne.symm h]
    · by_cases hj : k = j
      · subst hj; simp [tableErase, tableGet, hk]
      · simp [tableErase, tableGet, hk, hj, ih]

theorem tableErase_keys (t : Table α) (i : Nat) : ∀ e ∈ tableErase i t, e.1 ≠ i := by
  induction t with
  | nil => simp [tableErase]
  | cons e t ih =>
    obtain ⟨k, v⟩ := e
    by_cases h : k = i
    · simpa [tableErase, h] using ih
    · intro e he
      simp only [tableErase, h, if_false, List.mem_cons] at he
      rcases he with rfl | he
      · exact h
      · exact ih e he

theorem tableGet_insert_same (t : Table α) (i : Nat) (x : α) (h : ∀ e ∈ t, e.1 ≠ i) :
    tableGet u (tableInsert i x t) i = x := by
  induction t with
  | nil => simp [tableInsert, tableGet]
  | cons e t ih =>
    obtain ⟨k, v⟩ := e
    have hk : k ≠ i := h (k, v) (by simp)
    have ht := ih fun e he => h e (by simp [he])
    by_cases hlt : i < k <;> simp [tableInsert, tableGet, hlt, hk, ht]

theorem tableGet_insert_ne (t : Table α) {i j : Nat} (x : α) (h : j ≠ i) :
    tableGet u (tableInsert i x t) j = tableGet u t j := by
  induction t with
  | nil => simp [tableInsert, tableGet, Ne.symm h]
  | cons e t ih =>
    obtain ⟨k, v⟩ := e
    by_cases hk : k = j
    · subst hk
      by_cases hlt : i < k <;> simp [tableInsert, tableGet, hlt, Ne.symm h]
    · by_cases hlt : i < k <;> simp [tableInsert, tableGet, hlt, hk, ih, Ne.symm h]

variable [DecidableEq α]

@[simp] theorem tableGet_set_same (t : Table α) (i : Nat) (x : α) : tableGet u (tableSet u t i x) i = x := by
  unfold tableSet
  split
  · rename_i h
    rw [tableGet_erase_same, h]
  · exact tableGet_insert_same u _ i x (tableErase_keys t i)

@[simp] theorem tableGet_set_ne (t : Table α) {i j : Nat} (x : α) (h : j ≠ i) :
    tableGet u (tableSet u t i x) j = tableGet u t j := by
  unfold tableSet
  split
  · exact tableGet_erase_ne u t h
  · rw [tableGet_insert_ne u _ x h, tableGet_erase_ne u t h]

theorem tableGet_set (t : Table α) (i j : Nat) (x : α) :
    tableGet u (tableSet u t i x) j = if j = i then x else tableGet u t j := by
  by_cases h : j = i
  · subst h; simp
  · simp [h]

/-! ### The canonical form -/

omit [DecidableEq α] in
theorem mem_tableErase {t : Table α} {i : Nat} {e : Nat × α} (h : e ∈ tableErase i t) : e ∈ t := by
  induction t with
  | nil => exact h
  | cons f t ih =>
    obtain ⟨k, v⟩ := f
    by_cases hk : k = i
    · simp only [tableErase, hk, if_true] at h
      exact List.mem_cons_of_mem _ (ih h)
    · simp only [tableErase, hk, if_false, List.mem_cons] at h
      rcases h with rfl | h
      · exact List.mem_cons_self
      · exact List.mem_cons_of_mem _ (ih h)

omit [DecidableEq α] in
theorem mem_tableInsert {t : Table α} {i : Nat} {x : α} {e : Nat × α} (h : e ∈ tableInsert i x t) :
    e = (i, x) ∨ e ∈ t := by
  induction t with
  | nil => simpa [tableInsert] using h
  | cons f t ih =>
    obtain ⟨k, v⟩ := f
    by_cases hk : i < k
    · simpa [tableInsert, hk] using h
    · simp only [tableInsert, hk, if_false, List.mem_cons] at h ⊢
      rcases h with rfl | h
      · exact .inr (.inl rfl)
      · rcases ih h with h | h
        · exact .inl h
        · exact .inr (.inr h)

theorem tableWf_cons {k : Nat} {v : α} {t : Table α} :
    tableWf u ((k, v) :: t) = true ↔ v ≠ u k ∧ (∀ e ∈ t, k < e.1) ∧ tableWf u t = true := by
  simp [tableWf, and_assoc]

theorem tableWf_erase {t : Table α} (i : Nat) (h : tableWf u t = true) : tableWf u (tableErase i t) = true := by
  induction t with
  | nil => rfl
  | cons e t ih =>
    obtain ⟨k, v⟩ := e
    obtain ⟨hv, hk, ht⟩ := (tableWf_cons u).1 h
    by_cases hi : k = i
    · simpa [tableErase, hi] using ih ht
    · simp only [tableErase, hi, if_false]
      exact (tableWf_cons u).2 ⟨hv, fun e he => hk e (mem_tableErase he), ih ht⟩

theorem tableWf_insert {t : Table α} {i : Nat} {x : α} (hx : x ≠ u i) (hi : ∀ e ∈ t, e.1 ≠ i)
    (h : tableWf u t = true) : tableWf u (tableInsert i x t) = true := by
  induction t with
  | nil => simp [tableInsert, tableWf, hx]
  | cons e t ih =>
    obtain ⟨k, v⟩ := e
    obtain ⟨hv, hk, ht⟩ := (tableWf_cons u).1 h
    have hki : k ≠ i := hi (k, v) (by simp)
    by_cases hlt : i < k
    · simp only [tableInsert, hlt, if_true]
      refine (tableWf_cons u).2 ⟨hx, fun e he => ?_, h⟩
      rcases List.mem_cons.1 he with rfl | he
      · exact hlt
      · exact Nat.lt_trans hlt (hk e he)
    · simp only [tableInsert, hlt, if_false]
      refine (tableWf_cons u).2 ⟨hv, fun e he => ?_, ih (fun e he => hi e (by simp [he])) ht⟩
      rcases mem_tableInsert he with rfl | he
      · simp only; omega
      · exact hk e he

/-- Setting an entry keeps the canonical form. -/
theorem tableWf_set {t : Table α} (i : Nat) (x : α) (h : tableWf u t = true) : tableWf u (tableSet u t i x) = true := by
  unfold tableSet
  split
  · exact tableWf_erase u i h
  · rename_i hx
    exact tableWf_insert u hx (tableErase_keys t i) (tableWf_erase u i h)

/-- A write of the cell data memory keeps its canonical form. -/
theorem Memory.wf_setCellByte (s : State) (cell offset : Nat) (x : Byte) (h : Memory.wf s.bm.cells = true) :
    Memory.wf (s.setCellByte cell offset x).bm.cells = true := tableWf_set cellUnlisted _ x h

end Sys2Proof.Machine
end

