-- ==== Sys2Proof/Laws/State.lean ====
section
/-! SUPPORT. What each update of State reads back as: the block it changes, the blocks it leaves, and the entry it writes. -/

namespace Sys2Proof.Machine

open Sys2Proof

/-! ### One block -/

@[simp] theorem State.onHp_fields (s : State) (f : HpBlock → HpBlock) :
    (s.onHp f).hp = f s.hp ∧
    (s.onHp f).bm = s.bm ∧
    (s.onHp f).dfu = s.dfu ∧
    (s.onHp f).lu = s.lu ∧
    (s.onHp f).es = s.es ∧
    (s.onHp f).cu = s.cu ∧
    (s.onHp f).ap = s.ap ∧
    (s.onHp f).ec = s.ec ∧
    (s.onHp f).pending = s.pending :=
  ⟨rfl, rfl, rfl, rfl, rfl, rfl, rfl, rfl, rfl⟩

@[simp] theorem State.onBm_fields (s : State) (f : BmBlock → BmBlock) :
    (s.onBm f).bm = f s.bm ∧
    (s.onBm f).hp = s.hp ∧
    (s.onBm f).dfu = s.dfu ∧
    (s.onBm f).lu = s.lu ∧
    (s.onBm f).es = s.es ∧
    (s.onBm f).cu = s.cu ∧
    (s.onBm f).ap = s.ap ∧
    (s.onBm f).ec = s.ec ∧
    (s.onBm f).pending = s.pending :=
  ⟨rfl, rfl, rfl, rfl, rfl, rfl, rfl, rfl, rfl⟩

@[simp] theorem State.onDfu_fields (s : State) (f : DfuBlock → DfuBlock) :
    (s.onDfu f).dfu = f s.dfu ∧
    (s.onDfu f).hp = s.hp ∧
    (s.onDfu f).bm = s.bm ∧
    (s.onDfu f).lu = s.lu ∧
    (s.onDfu f).es = s.es ∧
    (s.onDfu f).cu = s.cu ∧
    (s.onDfu f).ap = s.ap ∧
    (s.onDfu f).ec = s.ec ∧
    (s.onDfu f).pending = s.pending :=
  ⟨rfl, rfl, rfl, rfl, rfl, rfl, rfl, rfl, rfl⟩

@[simp] theorem State.onLu_fields (s : State) (f : LuBlock → LuBlock) :
    (s.onLu f).lu = f s.lu ∧
    (s.onLu f).hp = s.hp ∧
    (s.onLu f).bm = s.bm ∧
    (s.onLu f).dfu = s.dfu ∧
    (s.onLu f).es = s.es ∧
    (s.onLu f).cu = s.cu ∧
    (s.onLu f).ap = s.ap ∧
    (s.onLu f).ec = s.ec ∧
    (s.onLu f).pending = s.pending :=
  ⟨rfl, rfl, rfl, rfl, rfl, rfl, rfl, rfl, rfl⟩

@[simp] theorem State.onEs_fields (s : State) (f : EsBlock → EsBlock) :
    (s.onEs f).es = f s.es ∧
    (s.onEs f).hp = s.hp ∧
    (s.onEs f).bm = s.bm ∧
    (s.onEs f).dfu = s.dfu ∧
    (s.onEs f).lu = s.lu ∧
    (s.onEs f).cu = s.cu ∧
    (s.onEs f).ap = s.ap ∧
    (s.onEs f).ec = s.ec ∧
    (s.onEs f).pending = s.pending :=
  ⟨rfl, rfl, rfl, rfl, rfl, rfl, rfl, rfl, rfl⟩

@[simp] theorem State.onCu_fields (s : State) (f : CuBlock → CuBlock) :
    (s.onCu f).cu = f s.cu ∧
    (s.onCu f).hp = s.hp ∧
    (s.onCu f).bm = s.bm ∧
    (s.onCu f).dfu = s.dfu ∧
    (s.onCu f).lu = s.lu ∧
    (s.onCu f).es = s.es ∧
    (s.onCu f).ap = s.ap ∧
    (s.onCu f).ec = s.ec ∧
    (s.onCu f).pending = s.pending :=
  ⟨rfl, rfl, rfl, rfl, rfl, rfl, rfl, rfl, rfl⟩

@[simp] theorem State.onAp_fields (s : State) (f : ApBlock → ApBlock) :
    (s.onAp f).ap = f s.ap ∧
    (s.onAp f).hp = s.hp ∧
    (s.onAp f).bm = s.bm ∧
    (s.onAp f).dfu = s.dfu ∧
    (s.onAp f).lu = s.lu ∧
    (s.onAp f).es = s.es ∧
    (s.onAp f).cu = s.cu ∧
    (s.onAp f).ec = s.ec ∧
    (s.onAp f).pending = s.pending :=
  ⟨rfl, rfl, rfl, rfl, rfl, rfl, rfl, rfl, rfl⟩

@[simp] theorem State.onEc_fields (s : State) (f : EcBlock → EcBlock) :
    (s.onEc f).ec = f s.ec ∧
    (s.onEc f).hp = s.hp ∧
    (s.onEc f).bm = s.bm ∧
    (s.onEc f).dfu = s.dfu ∧
    (s.onEc f).lu = s.lu ∧
    (s.onEc f).es = s.es ∧
    (s.onEc f).cu = s.cu ∧
    (s.onEc f).ap = s.ap ∧
    (s.onEc f).pending = s.pending :=
  ⟨rfl, rfl, rfl, rfl, rfl, rfl, rfl, rfl, rfl⟩

/-! ### One entry of a block's table, and the other blocks -/

@[simp] theorem State.setRead_blocks (s : State) (i : Nat) (r : Option HostRead) :
    (s.setRead i r).bm = s.bm ∧
    (s.setRead i r).dfu = s.dfu ∧
    (s.setRead i r).lu = s.lu ∧
    (s.setRead i r).es = s.es ∧
    (s.setRead i r).cu = s.cu ∧
    (s.setRead i r).ap = s.ap ∧
    (s.setRead i r).ec = s.ec ∧
    (s.setRead i r).pending = s.pending :=
  ⟨rfl, rfl, rfl, rfl, rfl, rfl, rfl, rfl⟩

@[simp] theorem State.setCellByte_blocks (s : State) (c o : Nat) (x : Byte) :
    (s.setCellByte c o x).hp = s.hp ∧
    (s.setCellByte c o x).dfu = s.dfu ∧
    (s.setCellByte c o x).lu = s.lu ∧
    (s.setCellByte c o x).es = s.es ∧
    (s.setCellByte c o x).cu = s.cu ∧
    (s.setCellByte c o x).ap = s.ap ∧
    (s.setCellByte c o x).ec = s.ec ∧
    (s.setCellByte c o x).pending = s.pending :=
  ⟨rfl, rfl, rfl, rfl, rfl, rfl, rfl, rfl⟩

@[simp] theorem State.setLinkEntry_blocks (s : State) (c : Nat) (x : Option Nat) :
    (s.setLinkEntry c x).hp = s.hp ∧
    (s.setLinkEntry c x).dfu = s.dfu ∧
    (s.setLinkEntry c x).lu = s.lu ∧
    (s.setLinkEntry c x).es = s.es ∧
    (s.setLinkEntry c x).cu = s.cu ∧
    (s.setLinkEntry c x).ap = s.ap ∧
    (s.setLinkEntry c x).ec = s.ec ∧
    (s.setLinkEntry c x).pending = s.pending :=
  ⟨rfl, rfl, rfl, rfl, rfl, rfl, rfl, rfl⟩

@[simp] theorem State.setFrame_blocks (s : State) (r : Nat) (f : FrameRecord) :
    (s.setFrame r f).hp = s.hp ∧
    (s.setFrame r f).dfu = s.dfu ∧
    (s.setFrame r f).lu = s.lu ∧
    (s.setFrame r f).es = s.es ∧
    (s.setFrame r f).cu = s.cu ∧
    (s.setFrame r f).ap = s.ap ∧
    (s.setFrame r f).ec = s.ec ∧
    (s.setFrame r f).pending = s.pending :=
  ⟨rfl, rfl, rfl, rfl, rfl, rfl, rfl, rfl⟩

@[simp] theorem State.setFlow_blocks (s : State) (n : Nat) (c : FlowContext) :
    (s.setFlow n c).hp = s.hp ∧
    (s.setFlow n c).dfu = s.dfu ∧
    (s.setFlow n c).lu = s.lu ∧
    (s.setFlow n c).es = s.es ∧
    (s.setFlow n c).cu = s.cu ∧
    (s.setFlow n c).ap = s.ap ∧
    (s.setFlow n c).ec = s.ec ∧
    (s.setFlow n c).pending = s.pending :=
  ⟨rfl, rfl, rfl, rfl, rfl, rfl, rfl, rfl⟩

@[simp] theorem State.setSq_blocks (s : State) (n : Nat) (c : SqContext) :
    (s.setSq n c).hp = s.hp ∧
    (s.setSq n c).bm = s.bm ∧
    (s.setSq n c).lu = s.lu ∧
    (s.setSq n c).es = s.es ∧
    (s.setSq n c).cu = s.cu ∧
    (s.setSq n c).ap = s.ap ∧
    (s.setSq n c).ec = s.ec ∧
    (s.setSq n c).pending = s.pending :=
  ⟨rfl, rfl, rfl, rfl, rfl, rfl, rfl, rfl⟩

@[simp] theorem State.setSlot_blocks (s : State) (i : Nat) (x : FetchSlot) :
    (s.setSlot i x).hp = s.hp ∧
    (s.setSlot i x).bm = s.bm ∧
    (s.setSlot i x).lu = s.lu ∧
    (s.setSlot i x).es = s.es ∧
    (s.setSlot i x).cu = s.cu ∧
    (s.setSlot i x).ap = s.ap ∧
    (s.setSlot i x).ec = s.ec ∧
    (s.setSlot i x).pending = s.pending :=
  ⟨rfl, rfl, rfl, rfl, rfl, rfl, rfl, rfl⟩

@[simp] theorem State.setLink_blocks (s : State) (l : Nat) (c : LinkContext) :
    (s.setLink l c).hp = s.hp ∧
    (s.setLink l c).bm = s.bm ∧
    (s.setLink l c).dfu = s.dfu ∧
    (s.setLink l c).es = s.es ∧
    (s.setLink l c).cu = s.cu ∧
    (s.setLink l c).ap = s.ap ∧
    (s.setLink l c).ec = s.ec ∧
    (s.setLink l c).pending = s.pending :=
  ⟨rfl, rfl, rfl, rfl, rfl, rfl, rfl, rfl⟩

@[simp] theorem State.setAvailable_blocks (s : State) (l lane n : Nat) :
    (s.setAvailable l lane n).hp = s.hp ∧
    (s.setAvailable l lane n).bm = s.bm ∧
    (s.setAvailable l lane n).dfu = s.dfu ∧
    (s.setAvailable l lane n).es = s.es ∧
    (s.setAvailable l lane n).cu = s.cu ∧
    (s.setAvailable l lane n).ap = s.ap ∧
    (s.setAvailable l lane n).ec = s.ec ∧
    (s.setAvailable l lane n).pending = s.pending :=
  ⟨rfl, rfl, rfl, rfl, rfl, rfl, rfl, rfl⟩

@[simp] theorem State.setSched_blocks (s : State) (l : Nat) (c : Scheduler) :
    (s.setSched l c).hp = s.hp ∧
    (s.setSched l c).bm = s.bm ∧
    (s.setSched l c).dfu = s.dfu ∧
    (s.setSched l c).lu = s.lu ∧
    (s.setSched l c).cu = s.cu ∧
    (s.setSched l c).ap = s.ap ∧
    (s.setSched l c).ec = s.ec ∧
    (s.setSched l c).pending = s.pending :=
  ⟨rfl, rfl, rfl, rfl, rfl, rfl, rfl, rfl⟩

@[simp] theorem State.setCq_blocks (s : State) (n : Nat) (c : CqContext) :
    (s.setCq n c).hp = s.hp ∧
    (s.setCq n c).bm = s.bm ∧
    (s.setCq n c).dfu = s.dfu ∧
    (s.setCq n c).lu = s.lu ∧
    (s.setCq n c).es = s.es ∧
    (s.setCq n c).ap = s.ap ∧
    (s.setCq n c).ec = s.ec ∧
    (s.setCq n c).pending = s.pending :=
  ⟨rfl, rfl, rfl, rfl, rfl, rfl, rfl, rfl⟩

@[simp] theorem State.emit_blocks (s : State) (t : HostTraffic) :
    (s.emit t).bm = s.bm ∧
    (s.emit t).dfu = s.dfu ∧
    (s.emit t).lu = s.lu ∧
    (s.emit t).es = s.es ∧
    (s.emit t).cu = s.cu ∧
    (s.emit t).ap = s.ap ∧
    (s.emit t).ec = s.ec ∧
    (s.emit t).pending = s.pending :=
  ⟨rfl, rfl, rfl, rfl, rfl, rfl, rfl, rfl⟩

@[simp] theorem State.send_blocks (s : State) (l : Nat) (m : LinkMessage) :
    (s.send l m).hp = s.hp ∧
    (s.send l m).bm = s.bm ∧
    (s.send l m).dfu = s.dfu ∧
    (s.send l m).es = s.es ∧
    (s.send l m).cu = s.cu ∧
    (s.send l m).ap = s.ap ∧
    (s.send l m).ec = s.ec ∧
    (s.send l m).pending = s.pending :=
  ⟨rfl, rfl, rfl, rfl, rfl, rfl, rfl, rfl⟩

/-! ### The other fields of the block -/

@[simp] theorem State.emit_hp (s : State) (t : HostTraffic) : (s.emit t).hp = { s.hp with out := s.hp.out ++ [t] } := rfl
@[simp] theorem State.send_lu (s : State) (l : Nat) (m : LinkMessage) :
    (s.send l m).lu = { s.lu with out := s.lu.out ++ [(l, m)] } := rfl
@[simp] theorem State.setRead_hp (s : State) (i : Nat) (r : Option HostRead) :
    (s.setRead i r).hp = { s.hp with reads := tableSet readUnlisted s.hp.reads i r } := rfl
@[simp] theorem State.setSq_dfu (s : State) (n : Nat) (c : SqContext) :
    (s.setSq n c).dfu = { s.dfu with rings := tableSet sqUnlisted s.dfu.rings n c } := rfl
@[simp] theorem State.setSlot_dfu (s : State) (i : Nat) (x : FetchSlot) :
    (s.setSlot i x).dfu = { s.dfu with slots := tableSet slotUnlisted s.dfu.slots i x } := rfl
@[simp] theorem State.setLink_lu (s : State) (l : Nat) (c : LinkContext) :
    (s.setLink l c).lu = { s.lu with links := tableSet linkContextUnlisted s.lu.links l c } := rfl
@[simp] theorem State.setSched_es (s : State) (l : Nat) (c : Scheduler) :
    (s.setSched l c).es = { s.es with schedulers := tableSet schedulerUnlisted s.es.schedulers l c } := rfl
@[simp] theorem State.setCq_cu (s : State) (n : Nat) (c : CqContext) :
    (s.setCq n c).cu = { s.cu with rings := tableSet cqUnlisted s.cu.rings n c } := rfl
@[simp] theorem State.setFrame_bm (s : State) (r : Nat) (f : FrameRecord) :
    (s.setFrame r f).bm = { s.bm with frames := tableSet frameUnlisted s.bm.frames r f } := rfl
@[simp] theorem State.setFlow_bm (s : State) (n : Nat) (c : FlowContext) :
    (s.setFlow n c).bm = { s.bm with flows := tableSet flowUnlisted s.bm.flows n c } := rfl
@[simp] theorem State.setLinkEntry_bm (s : State) (c : Nat) (x : Option Nat) :
    (s.setLinkEntry c x).bm = { s.bm with
      links := tableSet linkUnlisted s.bm.links c x, linkEcc := tableErase c s.bm.linkEcc } := rfl
@[simp] theorem State.setCellByte_bm (s : State) (c o : Nat) (x : Byte) :
    (s.setCellByte c o x).bm = { s.bm with
      cells := tableSet cellUnlisted s.bm.cells (cellBytes * c + o) x,
      cellEcc := tableErase (cellBytes * c + o) s.bm.cellEcc } := rfl

/-! ### The entry written, and every other entry -/

@[simp] theorem State.read_setRead (s : State) (i j : Nat) (x : Option HostRead) :
    (s.setRead i x).read j = if j = i then x else s.read j := tableGet_set _ _ _ _ _

@[simp] theorem State.frame_setFrame (s : State) (i j : Nat) (x : FrameRecord) :
    (s.setFrame i x).frame j = if j = i then x else s.frame j := tableGet_set _ _ _ _ _

@[simp] theorem State.flow_setFlow (s : State) (i j : Nat) (x : FlowContext) :
    (s.setFlow i x).flow j = if j = i then x else s.flow j := tableGet_set _ _ _ _ _

@[simp] theorem State.sq_setSq (s : State) (i j : Nat) (x : SqContext) :
    (s.setSq i x).sq j = if j = i then x else s.sq j := tableGet_set _ _ _ _ _

@[simp] theorem State.slot_setSlot (s : State) (i j : Nat) (x : FetchSlot) :
    (s.setSlot i x).slot j = if j = i then x else s.slot j := tableGet_set _ _ _ _ _

@[simp] theorem State.link_setLink (s : State) (i j : Nat) (x : LinkContext) :
    (s.setLink i x).link j = if j = i then x else s.link j := tableGet_set _ _ _ _ _

@[simp] theorem State.sched_setSched (s : State) (i j : Nat) (x : Scheduler) :
    (s.setSched i x).sched j = if j = i then x else s.sched j := tableGet_set _ _ _ _ _

@[simp] theorem State.cq_setCq (s : State) (i j : Nat) (x : CqContext) :
    (s.setCq i x).cq j = if j = i then x else s.cq j := tableGet_set _ _ _ _ _

@[simp] theorem State.linkEntry_setLinkEntry (s : State) (i j : Nat) (x : Option Nat) :
    (s.setLinkEntry i x).linkEntry j = if j = i then x else s.linkEntry j := tableGet_set _ _ _ _ _

theorem State.cellByte_setCellByte (s : State) (c o d p : Nat) (x : Byte) :
    (s.setCellByte c o x).cellByte d p = if cellBytes * d + p = cellBytes * c + o then x else s.cellByte d p :=
  tableGet_set _ _ _ _ _

theorem State.available_setAvailable (s : State) (l lane n k m : Nat) :
    (s.setAvailable l lane n).available k m = if k = l ∧ m = lane then n else s.available k m := by
  unfold State.setAvailable State.available
  by_cases h : k = l
  · subst h; simp [tableGet_set]
  · simp [h]

theorem State.announced_setAvailable (s : State) (l lane n k m : Nat) :
    (s.setAvailable l lane n).announced k m = s.announced k m := by
  unfold State.setAvailable State.announced
  by_cases h : k = l
  · subst h; simp
  · simp [h]

/-! ### A reading depends on its block's table alone -/

theorem State.read_congr (s t : State) (i : Nat) (h : t.hp.reads = s.hp.reads) : t.read i = s.read i := by
  simp only [State.read, h]

theorem State.frame_congr (s t : State) (i : Nat) (h : t.bm.frames = s.bm.frames) : t.frame i = s.frame i := by
  simp only [State.frame, h]

theorem State.flow_congr (s t : State) (i : Nat) (h : t.bm.flows = s.bm.flows) : t.flow i = s.flow i := by
  simp only [State.flow, h]

theorem State.linkEntry_congr (s t : State) (i : Nat) (h : t.bm.links = s.bm.links) : t.linkEntry i = s.linkEntry i := by
  simp only [State.linkEntry, h]

theorem State.cellByte_congr (s t : State) (i j : Nat) (h : t.bm.cells = s.bm.cells) : t.cellByte i j = s.cellByte i j := by
  simp only [State.cellByte, h]

theorem State.sq_congr (s t : State) (i : Nat) (h : t.dfu.rings = s.dfu.rings) : t.sq i = s.sq i := by
  simp only [State.sq, h]

theorem State.slot_congr (s t : State) (i : Nat) (h : t.dfu.slots = s.dfu.slots) : t.slot i = s.slot i := by
  simp only [State.slot, h]

theorem State.link_congr (s t : State) (i : Nat) (h : t.lu.links = s.lu.links) : t.link i = s.link i := by
  simp only [State.link, h]

theorem State.available_congr (s t : State) (i j : Nat) (h : t.lu.links = s.lu.links) : t.available i j = s.available i j := by
  simp only [State.available, State.link, h]

theorem State.announced_congr (s t : State) (i j : Nat) (h : t.lu.links = s.lu.links) : t.announced i j = s.announced i j := by
  simp only [State.announced, State.link, h]

theorem State.sched_congr (s t : State) (i : Nat) (h : t.es.schedulers = s.es.schedulers) : t.sched i = s.sched i := by
  simp only [State.sched, h]

theorem State.cq_congr (s t : State) (i : Nat) (h : t.cu.rings = s.cu.rings) : t.cq i = s.cq i := by
  simp only [State.cq, h]

/-! ### Readings of one table across writes of another -/

@[simp] theorem State.setRead_reads (s : State) (i : Nat) (r : Option HostRead) :
    (∀ k, (s.setRead i r).frame k = s.frame k) ∧
    (∀ k, (s.setRead i r).flow k = s.flow k) ∧
    (∀ k, (s.setRead i r).linkEntry k = s.linkEntry k) ∧
    (∀ k q, (s.setRead i r).cellByte k q = s.cellByte k q) ∧
    (∀ k, (s.setRead i r).sq k = s.sq k) ∧
    (∀ k, (s.setRead i r).slot k = s.slot k) ∧
    (∀ k, (s.setRead i r).link k = s.link k) ∧
    (∀ k q, (s.setRead i r).available k q = s.available k q) ∧
    (∀ k q, (s.setRead i r).announced k q = s.announced k q) ∧
    (∀ k, (s.setRead i r).sched k = s.sched k) ∧
    (∀ k, (s.setRead i r).cq k = s.cq k) :=
  ⟨fun _ => rfl, fun _ => rfl, fun _ => rfl, fun _ _ => rfl, fun _ => rfl, fun _ => rfl, fun _ => rfl, fun _ _ => rfl, fun _ _ => rfl, fun _ => rfl, fun _ => rfl⟩

@[simp] theorem State.setCellByte_reads (s : State) (c o : Nat) (x : Byte) :
    (∀ k, (s.setCellByte c o x).read k = s.read k) ∧
    (∀ k, (s.setCellByte c o x).frame k = s.frame k) ∧
    (∀ k, (s.setCellByte c o x).flow k = s.flow k) ∧
    (∀ k, (s.setCellByte c o x).linkEntry k = s.linkEntry k) ∧
    (∀ k, (s.setCellByte c o x).sq k = s.sq k) ∧
    (∀ k, (s.setCellByte c o x).slot k = s.slot k) ∧
    (∀ k, (s.setCellByte c o x).link k = s.link k) ∧
    (∀ k q, (s.setCellByte c o x).available k q = s.available k q) ∧
    (∀ k q, (s.setCellByte c o x).announced k q = s.announced k q) ∧
    (∀ k, (s.setCellByte c o x).sched k = s.sched k) ∧
    (∀ k, (s.setCellByte c o x).cq k = s.cq k) :=
  ⟨fun _ => rfl, fun _ => rfl, fun _ => rfl, fun _ => rfl, fun _ => rfl, fun _ => rfl, fun _ => rfl, fun _ _ => rfl, fun _ _ => rfl, fun _ => rfl, fun _ => rfl⟩

@[simp] theorem State.setLinkEntry_reads (s : State) (c : Nat) (x : Option Nat) :
    (∀ k, (s.setLinkEntry c x).read k = s.read k) ∧
    (∀ k, (s.setLinkEntry c x).frame k = s.frame k) ∧
    (∀ k, (s.setLinkEntry c x).flow k = s.flow k) ∧
    (∀ k q, (s.setLinkEntry c x).cellByte k q = s.cellByte k q) ∧
    (∀ k, (s.setLinkEntry c x).sq k = s.sq k) ∧
    (∀ k, (s.setLinkEntry c x).slot k = s.slot k) ∧
    (∀ k, (s.setLinkEntry c x).link k = s.link k) ∧
    (∀ k q, (s.setLinkEntry c x).available k q = s.available k q) ∧
    (∀ k q, (s.setLinkEntry c x).announced k q = s.announced k q) ∧
    (∀ k, (s.setLinkEntry c x).sched k = s.sched k) ∧
    (∀ k, (s.setLinkEntry c x).cq k = s.cq k) :=
  ⟨fun _ => rfl, fun _ => rfl, fun _ => rfl, fun _ _ => rfl, fun _ => rfl, fun _ => rfl, fun _ => rfl, fun _ _ => rfl, fun _ _ => rfl, fun _ => rfl, fun _ => rfl⟩

@[simp] theorem State.setFrame_reads (s : State) (r : Nat) (f : FrameRecord) :
    (∀ k, (s.setFrame r f).read k = s.read k) ∧
    (∀ k, (s.setFrame r f).flow k = s.flow k) ∧
    (∀ k, (s.setFrame r f).linkEntry k = s.linkEntry k) ∧
    (∀ k q, (s.setFrame r f).cellByte k q = s.cellByte k q) ∧
    (∀ k, (s.setFrame r f).sq k = s.sq k) ∧
    (∀ k, (s.setFrame r f).slot k = s.slot k) ∧
    (∀ k, (s.setFrame r f).link k = s.link k) ∧
    (∀ k q, (s.setFrame r f).available k q = s.available k q) ∧
    (∀ k q, (s.setFrame r f).announced k q = s.announced k q) ∧
    (∀ k, (s.setFrame r f).sched k = s.sched k) ∧
    (∀ k, (s.setFrame r f).cq k = s.cq k) :=
  ⟨fun _ => rfl, fun _ => rfl, fun _ => rfl, fun _ _ => rfl, fun _ => rfl, fun _ => rfl, fun _ => rfl, fun _ _ => rfl, fun _ _ => rfl, fun _ => rfl, fun _ => rfl⟩

@[simp] theorem State.setFlow_reads (s : State) (n : Nat) (c : FlowContext) :
    (∀ k, (s.setFlow n c).read k = s.read k) ∧
    (∀ k, (s.setFlow n c).frame k = s.frame k) ∧
    (∀ k, (s.setFlow n c).linkEntry k = s.linkEntry k) ∧
    (∀ k q, (s.setFlow n c).cellByte k q = s.cellByte k q) ∧
    (∀ k, (s.setFlow n c).sq k = s.sq k) ∧
    (∀ k, (s.setFlow n c).slot k = s.slot k) ∧
    (∀ k, (s.setFlow n c).link k = s.link k) ∧
    (∀ k q, (s.setFlow n c).available k q = s.available k q) ∧
    (∀ k q, (s.setFlow n c).announced k q = s.announced k q) ∧
    (∀ k, (s.setFlow n c).sched k = s.sched k) ∧
    (∀ k, (s.setFlow n c).cq k = s.cq k) :=
  ⟨fun _ => rfl, fun _ => rfl, fun _ => rfl, fun _ _ => rfl, fun _ => rfl, fun _ => rfl, fun _ => rfl, fun _ _ => rfl, fun _ _ => rfl, fun _ => rfl, fun _ => rfl⟩

@[simp] theorem State.setSq_reads (s : State) (n : Nat) (c : SqContext) :
    (∀ k, (s.setSq n c).read k = s.read k) ∧
    (∀ k, (s.setSq n c).frame k = s.frame k) ∧
    (∀ k, (s.setSq n c).flow k = s.flow k) ∧
    (∀ k, (s.setSq n c).linkEntry k = s.linkEntry k) ∧
    (∀ k q, (s.setSq n c).cellByte k q = s.cellByte k q) ∧
    (∀ k, (s.setSq n c).slot k = s.slot k) ∧
    (∀ k, (s.setSq n c).link k = s.link k) ∧
    (∀ k q, (s.setSq n c).available k q = s.available k q) ∧
    (∀ k q, (s.setSq n c).announced k q = s.announced k q) ∧
    (∀ k, (s.setSq n c).sched k = s.sched k) ∧
    (∀ k, (s.setSq n c).cq k = s.cq k) :=
  ⟨fun _ => rfl, fun _ => rfl, fun _ => rfl, fun _ => rfl, fun _ _ => rfl, fun _ => rfl, fun _ => rfl, fun _ _ => rfl, fun _ _ => rfl, fun _ => rfl, fun _ => rfl⟩

@[simp] theorem State.setSlot_reads (s : State) (i : Nat) (x : FetchSlot) :
    (∀ k, (s.setSlot i x).read k = s.read k) ∧
    (∀ k, (s.setSlot i x).frame k = s.frame k) ∧
    (∀ k, (s.setSlot i x).flow k = s.flow k) ∧
    (∀ k, (s.setSlot i x).linkEntry k = s.linkEntry k) ∧
    (∀ k q, (s.setSlot i x).cellByte k q = s.cellByte k q) ∧
    (∀ k, (s.setSlot i x).sq k = s.sq k) ∧
    (∀ k, (s.setSlot i x).link k = s.link k) ∧
    (∀ k q, (s.setSlot i x).available k q = s.available k q) ∧
    (∀ k q, (s.setSlot i x).announced k q = s.announced k q) ∧
    (∀ k, (s.setSlot i x).sched k = s.sched k) ∧
    (∀ k, (s.setSlot i x).cq k = s.cq k) :=
  ⟨fun _ => rfl, fun _ => rfl, fun _ => rfl, fun _ => rfl, fun _ _ => rfl, fun _ => rfl, fun _ => rfl, fun _ _ => rfl, fun _ _ => rfl, fun _ => rfl, fun _ => rfl⟩

@[simp] theorem State.setLink_reads (s : State) (l : Nat) (c : LinkContext) :
    (∀ k, (s.setLink l c).read k = s.read k) ∧
    (∀ k, (s.setLink l c).frame k = s.frame k) ∧
    (∀ k, (s.setLink l c).flow k = s.flow k) ∧
    (∀ k, (s.setLink l c).linkEntry k = s.linkEntry k) ∧
    (∀ k q, (s.setLink l c).cellByte k q = s.cellByte k q) ∧
    (∀ k, (s.setLink l c).sq k = s.sq k) ∧
    (∀ k, (s.setLink l c).slot k = s.slot k) ∧
    (∀ k, (s.setLink l c).sched k = s.sched k) ∧
    (∀ k, (s.setLink l c).cq k = s.cq k) :=
  ⟨fun _ => rfl, fun _ => rfl, fun _ => rfl, fun _ => rfl, fun _ _ => rfl, fun _ => rfl, fun _ => rfl, fun _ => rfl, fun _ => rfl⟩

@[simp] theorem State.setAvailable_reads (s : State) (l lane n : Nat) :
    (∀ k, (s.setAvailable l lane n).read k = s.read k) ∧
    (∀ k, (s.setAvailable l lane n).frame k = s.frame k) ∧
    (∀ k, (s.setAvailable l lane n).flow k = s.flow k) ∧
    (∀ k, (s.setAvailable l lane n).linkEntry k = s.linkEntry k) ∧
    (∀ k q, (s.setAvailable l lane n).cellByte k q = s.cellByte k q) ∧
    (∀ k, (s.setAvailable l lane n).sq k = s.sq k) ∧
    (∀ k, (s.setAvailable l lane n).slot k = s.slot k) ∧
    (∀ k, (s.setAvailable l lane n).sched k = s.sched k) ∧
    (∀ k, (s.setAvailable l lane n).cq k = s.cq k) :=
  ⟨fun _ => rfl, fun _ => rfl, fun _ => rfl, fun _ => rfl, fun _ _ => rfl, fun _ => rfl, fun _ => rfl, fun _ => rfl, fun _ => rfl⟩

@[simp] theorem State.setSched_reads (s : State) (l : Nat) (c : Scheduler) :
    (∀ k, (s.setSched l c).read k = s.read k) ∧
    (∀ k, (s.setSched l c).frame k = s.frame k) ∧
    (∀ k, (s.setSched l c).flow k = s.flow k) ∧
    (∀ k, (s.setSched l c).linkEntry k = s.linkEntry k) ∧
    (∀ k q, (s.setSched l c).cellByte k q = s.cellByte k q) ∧
    (∀ k, (s.setSched l c).sq k = s.sq k) ∧
    (∀ k, (s.setSched l c).slot k = s.slot k) ∧
    (∀ k, (s.setSched l c).link k = s.link k) ∧
    (∀ k q, (s.setSched l c).available k q = s.available k q) ∧
    (∀ k q, (s.setSched l c).announced k q = s.announced k q) ∧
    (∀ k, (s.setSched l c).cq k = s.cq k) :=
  ⟨fun _ => rfl, fun _ => rfl, fun _ => rfl, fun _ => rfl, fun _ _ => rfl, fun _ => rfl, fun _ => rfl, fun _ => rfl, fun _ _ => rfl, fun _ _ => rfl, fun _ => rfl⟩

@[simp] theorem State.setCq_reads (s : State) (n : Nat) (c : CqContext) :
    (∀ k, (s.setCq n c).read k = s.read k) ∧
    (∀ k, (s.setCq n c).frame k = s.frame k) ∧
    (∀ k, (s.setCq n c).flow k = s.flow k) ∧
    (∀ k, (s.setCq n c).linkEntry k = s.linkEntry k) ∧
    (∀ k q, (s.setCq n c).cellByte k q = s.cellByte k q) ∧
    (∀ k, (s.setCq n c).sq k = s.sq k) ∧
    (∀ k, (s.setCq n c).slot k = s.slot k) ∧
    (∀ k, (s.setCq n c).link k = s.link k) ∧
    (∀ k q, (s.setCq n c).available k q = s.available k q) ∧
    (∀ k q, (s.setCq n c).announced k q = s.announced k q) ∧
    (∀ k, (s.setCq n c).sched k = s.sched k) :=
  ⟨fun _ => rfl, fun _ => rfl, fun _ => rfl, fun _ => rfl, fun _ _ => rfl, fun _ => rfl, fun _ => rfl, fun _ => rfl, fun _ _ => rfl, fun _ _ => rfl, fun _ => rfl⟩

@[simp] theorem State.emit_reads (s : State) (t : HostTraffic) :
    (∀ k, (s.emit t).read k = s.read k) ∧
    (∀ k, (s.emit t).frame k = s.frame k) ∧
    (∀ k, (s.emit t).flow k = s.flow k) ∧
    (∀ k, (s.emit t).linkEntry k = s.linkEntry k) ∧
    (∀ k q, (s.emit t).cellByte k q = s.cellByte k q) ∧
    (∀ k, (s.emit t).sq k = s.sq k) ∧
    (∀ k, (s.emit t).slot k = s.slot k) ∧
    (∀ k, (s.emit t).link k = s.link k) ∧
    (∀ k q, (s.emit t).available k q = s.available k q) ∧
    (∀ k q, (s.emit t).announced k q = s.announced k q) ∧
    (∀ k, (s.emit t).sched k = s.sched k) ∧
    (∀ k, (s.emit t).cq k = s.cq k) :=
  ⟨fun _ => rfl, fun _ => rfl, fun _ => rfl, fun _ => rfl, fun _ _ => rfl, fun _ => rfl, fun _ => rfl, fun _ => rfl, fun _ _ => rfl, fun _ _ => rfl, fun _ => rfl, fun _ => rfl⟩

@[simp] theorem State.send_reads (s : State) (l : Nat) (m : LinkMessage) :
    (∀ k, (s.send l m).read k = s.read k) ∧
    (∀ k, (s.send l m).frame k = s.frame k) ∧
    (∀ k, (s.send l m).flow k = s.flow k) ∧
    (∀ k, (s.send l m).linkEntry k = s.linkEntry k) ∧
    (∀ k q, (s.send l m).cellByte k q = s.cellByte k q) ∧
    (∀ k, (s.send l m).sq k = s.sq k) ∧
    (∀ k, (s.send l m).slot k = s.slot k) ∧
    (∀ k, (s.send l m).link k = s.link k) ∧
    (∀ k q, (s.send l m).available k q = s.available k q) ∧
    (∀ k q, (s.send l m).announced k q = s.announced k q) ∧
    (∀ k, (s.send l m).sched k = s.sched k) ∧
    (∀ k, (s.send l m).cq k = s.cq k) :=
  ⟨fun _ => rfl, fun _ => rfl, fun _ => rfl, fun _ => rfl, fun _ _ => rfl, fun _ => rfl, fun _ => rfl, fun _ => rfl, fun _ _ => rfl, fun _ _ => rfl, fun _ => rfl, fun _ => rfl⟩

end Sys2Proof.Machine
end

