-- ==== Sys2Proof/Laws/Frames.lean ====
section
/-! SUPPORT. What each shared operation leaves unchanged: one lemma per operation, over the blocks of State and, where it writes to the HP or the EC, over the fields of those that it leaves. -/

namespace Sys2Proof.Machine

open Sys2Proof

/-- What of the HP only the device's own transitions and the host's register writes change: all but the read table, the
latch and the record of traffic. -/
def HpBlock.fixed (b : HpBlock) : HpBlock := { b with reads := [], latch := false, out := [] }

/-- What of the EC only the reports it takes, SET_ERROR_POLICY and the resets change: all but the notice ring's positions, the
backlog and the reports on their way. -/
def EcBlock.fixed (b : EcBlock) : EcBlock := { b with nrTail := 0, nrConsumer := 0, nrPhase := true, backlog := [], reports := [] }

theorem HpBlock.fields_of_fixed {a b : HpBlock} (h : a.fixed = b.fixed) :
    a.device = b.device ∧ a.run = b.run ∧ a.mode = b.mode ∧ a.configError = b.configError ∧ a.asrBase = b.asrBase ∧
    a.asrSize = b.asrSize ∧ a.acrBase = b.acrBase ∧ a.acrSize = b.acrSize ∧ a.nrBase = b.nrBase ∧
    a.nrSize = b.nrSize := by
  simpa [HpBlock.fixed] using h

theorem EcBlock.fields_of_fixed {a b : EcBlock} (h : a.fixed = b.fixed) :
    a.cellDataCount = b.cellDataCount ∧ a.linkTableCount = b.linkTableCount ∧
    a.frameTableCount = b.frameTableCount ∧ a.threshold = b.threshold ∧ a.fatalCause = b.fatalCause ∧
    a.multiple = b.multiple := by
  simpa [EcBlock.fixed] using h

@[simp] theorem HpBlock.fixed_out (b : HpBlock) (x : List HostTraffic) : HpBlock.fixed { b with out := x } = b.fixed := rfl
@[simp] theorem HpBlock.fixed_latch (b : HpBlock) (x : Bool) : HpBlock.fixed { b with latch := x } = b.fixed := rfl
@[simp] theorem HpBlock.fixed_reads (b : HpBlock) (x : Table (Option HostRead)) :
    HpBlock.fixed { b with reads := x } = b.fixed := rfl
@[simp] theorem EcBlock.fixed_notice (b : EcBlock) (t : Nat) (p : Bool) :
    EcBlock.fixed { b with nrTail := t, nrPhase := p } = b.fixed := rfl
@[simp] theorem EcBlock.fixed_consumer (b : EcBlock) (x : Nat) : EcBlock.fixed { b with nrConsumer := x } = b.fixed := rfl
@[simp] theorem EcBlock.fixed_backlog (b : EcBlock) (x : List BacklogEntry) :
    EcBlock.fixed { b with backlog := x } = b.fixed := rfl
@[simp] theorem EcBlock.fixed_reports (b : EcBlock) (x : List EccReport) :
    EcBlock.fixed { b with reports := x } = b.fixed := rfl

/-! ### Notices and the vector-0 latch -/

@[simp] theorem signalVector0_frame (s : State) :
    (signalVector0 s).hp.fixed = s.hp.fixed ∧
    (signalVector0 s).hp.device = s.hp.device ∧
    (signalVector0 s).bm = s.bm ∧
    (signalVector0 s).dfu = s.dfu ∧
    (signalVector0 s).lu = s.lu ∧
    (signalVector0 s).es = s.es ∧
    (signalVector0 s).cu = s.cu ∧
    (signalVector0 s).ap = s.ap ∧
    (signalVector0 s).ec = s.ec ∧
    (signalVector0 s).pending = s.pending := by unfold signalVector0; split <;> simp [HpBlock.fixed]

@[simp] theorem clearLatch_frame (s : State) :
    (clearLatch s).hp.fixed = s.hp.fixed ∧
    (clearLatch s).hp.device = s.hp.device ∧
    (clearLatch s).bm = s.bm ∧
    (clearLatch s).dfu = s.dfu ∧
    (clearLatch s).lu = s.lu ∧
    (clearLatch s).es = s.es ∧
    (clearLatch s).cu = s.cu ∧
    (clearLatch s).ap = s.ap ∧
    (clearLatch s).ec = s.ec ∧
    (clearLatch s).pending = s.pending := by simp [clearLatch]

@[simp] theorem writeNotice_frame (n : Notice) (k : Nat) (s : State) :
    (writeNotice n k s).hp.fixed = s.hp.fixed ∧
    (writeNotice n k s).hp.device = s.hp.device ∧
    (writeNotice n k s).ec.fixed = s.ec.fixed ∧
    (writeNotice n k s).bm = s.bm ∧
    (writeNotice n k s).dfu = s.dfu ∧
    (writeNotice n k s).lu = s.lu ∧
    (writeNotice n k s).es = s.es ∧
    (writeNotice n k s).cu = s.cu ∧
    (writeNotice n k s).ap = s.ap ∧
    (writeNotice n k s).pending = s.pending := by simp [writeNotice]

@[simp] theorem postponeNotice_frame (n : Notice) (s : State) :
    (postponeNotice n s).ec.fixed = s.ec.fixed ∧
    (postponeNotice n s).hp = s.hp ∧
    (postponeNotice n s).bm = s.bm ∧
    (postponeNotice n s).dfu = s.dfu ∧
    (postponeNotice n s).lu = s.lu ∧
    (postponeNotice n s).es = s.es ∧
    (postponeNotice n s).cu = s.cu ∧
    (postponeNotice n s).ap = s.ap ∧
    (postponeNotice n s).pending = s.pending := by simp [postponeNotice]

@[simp] theorem raiseNotice_frame (n : Notice) (s : State) :
    (raiseNotice n s).hp.fixed = s.hp.fixed ∧
    (raiseNotice n s).hp.device = s.hp.device ∧
    (raiseNotice n s).ec.fixed = s.ec.fixed ∧
    (raiseNotice n s).bm = s.bm ∧
    (raiseNotice n s).dfu = s.dfu ∧
    (raiseNotice n s).lu = s.lu ∧
    (raiseNotice n s).es = s.es ∧
    (raiseNotice n s).cu = s.cu ∧
    (raiseNotice n s).ap = s.ap ∧
    (raiseNotice n s).pending = s.pending := by unfold raiseNotice; split <;> (try split) <;> simp

@[simp] theorem drainEntries_frame (es : List BacklogEntry) (s : State) :
    (drainEntries es s).hp.fixed = s.hp.fixed ∧
    (drainEntries es s).hp.device = s.hp.device ∧
    (drainEntries es s).ec.fixed = s.ec.fixed ∧
    (drainEntries es s).bm = s.bm ∧
    (drainEntries es s).dfu = s.dfu ∧
    (drainEntries es s).lu = s.lu ∧
    (drainEntries es s).es = s.es ∧
    (drainEntries es s).cu = s.cu ∧
    (drainEntries es s).ap = s.ap ∧
    (drainEntries es s).pending = s.pending := by
  induction es generalizing s with
  | nil => simp [drainEntries]
  | cons e es ih =>
    unfold drainEntries
    split
    · simp [ih]
    · simp

@[simp] theorem drainBacklog_frame (s : State) :
    (drainBacklog s).hp.fixed = s.hp.fixed ∧
    (drainBacklog s).hp.device = s.hp.device ∧
    (drainBacklog s).ec.fixed = s.ec.fixed ∧
    (drainBacklog s).bm = s.bm ∧
    (drainBacklog s).dfu = s.dfu ∧
    (drainBacklog s).lu = s.lu ∧
    (drainBacklog s).es = s.es ∧
    (drainBacklog s).cu = s.cu ∧
    (drainBacklog s).ap = s.ap ∧
    (drainBacklog s).pending = s.pending := by simp [drainBacklog]

@[simp] theorem sendReport_frame (r : EccReport) (s : State) :
    (sendReport r s).ec.fixed = s.ec.fixed ∧
    (sendReport r s).hp = s.hp ∧
    (sendReport r s).bm = s.bm ∧
    (sendReport r s).dfu = s.dfu ∧
    (sendReport r s).lu = s.lu ∧
    (sendReport r s).es = s.es ∧
    (sendReport r s).cu = s.cu ∧
    (sendReport r s).ap = s.ap ∧
    (sendReport r s).pending = s.pending := by simp [sendReport]

/-! ### Host reads and the admin rings -/

@[simp] theorem issueRead_frame (e a n : Nat) (s : State) :
    (issueRead e a n s).hp.fixed = s.hp.fixed ∧
    (issueRead e a n s).hp.device = s.hp.device ∧
    (issueRead e a n s).bm = s.bm ∧
    (issueRead e a n s).dfu = s.dfu ∧
    (issueRead e a n s).lu = s.lu ∧
    (issueRead e a n s).es = s.es ∧
    (issueRead e a n s).cu = s.cu ∧
    (issueRead e a n s).ap = s.ap ∧
    (issueRead e a n s).ec = s.ec ∧
    (issueRead e a n s).pending = s.pending := by simp [issueRead, HpBlock.fixed]

@[simp] theorem startCommandRead_frame (s : State) :
    (startCommandRead s).hp.fixed = s.hp.fixed ∧
    (startCommandRead s).hp.device = s.hp.device ∧
    (startCommandRead s).bm = s.bm ∧
    (startCommandRead s).dfu = s.dfu ∧
    (startCommandRead s).lu = s.lu ∧
    (startCommandRead s).es = s.es ∧
    (startCommandRead s).cu = s.cu ∧
    (startCommandRead s).ec = s.ec ∧
    (startCommandRead s).pending = s.pending := by unfold startCommandRead; split <;> simp

@[simp] theorem adminComplete_frame (tag : BitVec 16) (k : Nat) (st : AdminStatus) (r : Nat) (s : State) :
    (adminComplete tag k st r s).hp.fixed = s.hp.fixed ∧
    (adminComplete tag k st r s).hp.device = s.hp.device ∧
    (adminComplete tag k st r s).bm = s.bm ∧
    (adminComplete tag k st r s).dfu = s.dfu ∧
    (adminComplete tag k st r s).lu = s.lu ∧
    (adminComplete tag k st r s).es = s.es ∧
    (adminComplete tag k st r s).cu = s.cu ∧
    (adminComplete tag k st r s).ec = s.ec ∧
    (adminComplete tag k st r s).pending = s.pending := by simp [adminComplete]

@[simp] theorem endLong_frame (o : LongOperation) (st : AdminStatus) (r : Nat) (s : State) :
    (endLong o st r s).hp.fixed = s.hp.fixed ∧
    (endLong o st r s).hp.device = s.hp.device ∧
    (endLong o st r s).bm = s.bm ∧
    (endLong o st r s).dfu = s.dfu ∧
    (endLong o st r s).lu = s.lu ∧
    (endLong o st r s).es = s.es ∧
    (endLong o st r s).cu = s.cu ∧
    (endLong o st r s).ec = s.ec ∧
    (endLong o st r s).pending = s.pending := by unfold endLong; split <;> simp

@[simp] theorem appendOutstanding_frame (o : LongOperation) (tag : BitVec 16) (s : State) :
    (appendOutstanding o tag s).hp = s.hp ∧
    (appendOutstanding o tag s).bm = s.bm ∧
    (appendOutstanding o tag s).dfu = s.dfu ∧
    (appendOutstanding o tag s).lu = s.lu ∧
    (appendOutstanding o tag s).es = s.es ∧
    (appendOutstanding o tag s).cu = s.cu ∧
    (appendOutstanding o tag s).ec = s.ec ∧
    (appendOutstanding o tag s).pending = s.pending := by simp [appendOutstanding]

@[simp] theorem abortOutstanding_frame (es : List Outstanding) (s : State) :
    (abortOutstanding es s).hp.fixed = s.hp.fixed ∧
    (abortOutstanding es s).hp.device = s.hp.device ∧
    (abortOutstanding es s).bm = s.bm ∧
    (abortOutstanding es s).dfu = s.dfu ∧
    (abortOutstanding es s).lu = s.lu ∧
    (abortOutstanding es s).es = s.es ∧
    (abortOutstanding es s).cu = s.cu ∧
    (abortOutstanding es s).ec = s.ec ∧
    (abortOutstanding es s).pending = s.pending := by
  induction es generalizing s with
  | nil => simp [abortOutstanding]
  | cons e es ih => simp [abortOutstanding, ih]

/-! ### Completion rings and submission rings -/

@[simp] theorem cqReserve_frame (n : Nat) (s : State) :
    (cqReserve n s).hp = s.hp ∧
    (cqReserve n s).bm = s.bm ∧
    (cqReserve n s).dfu = s.dfu ∧
    (cqReserve n s).lu = s.lu ∧
    (cqReserve n s).es = s.es ∧
    (cqReserve n s).ap = s.ap ∧
    (cqReserve n s).ec = s.ec ∧
    (cqReserve n s).pending = s.pending := by simp [cqReserve]

@[simp] theorem cqRelease_frame (n : Nat) (s : State) :
    (cqRelease n s).hp = s.hp ∧
    (cqRelease n s).bm = s.bm ∧
    (cqRelease n s).dfu = s.dfu ∧
    (cqRelease n s).lu = s.lu ∧
    (cqRelease n s).es = s.es ∧
    (cqRelease n s).ap = s.ap ∧
    (cqRelease n s).ec = s.ec ∧
    (cqRelease n s).pending = s.pending := by simp [cqRelease]

@[simp] theorem coalesce_frame (n : Nat) (s : State) :
    (coalesce n s).hp.fixed = s.hp.fixed ∧
    (coalesce n s).hp.device = s.hp.device ∧
    (coalesce n s).bm = s.bm ∧
    (coalesce n s).dfu = s.dfu ∧
    (coalesce n s).lu = s.lu ∧
    (coalesce n s).es = s.es ∧
    (coalesce n s).ap = s.ap ∧
    (coalesce n s).ec = s.ec ∧
    (coalesce n s).pending = s.pending := by unfold coalesce; (try dsimp only); split <;> (try split) <;> simp

@[simp] theorem writeCompletion_frame (n : Nat) (tag : BitVec 32) (st : FrameStatus) (c : Subcode) (b : Bool) (k : Nat) (s : State) :
    (writeCompletion n tag st c b k s).hp.fixed = s.hp.fixed ∧
    (writeCompletion n tag st c b k s).hp.device = s.hp.device ∧
    (writeCompletion n tag st c b k s).bm = s.bm ∧
    (writeCompletion n tag st c b k s).dfu = s.dfu ∧
    (writeCompletion n tag st c b k s).lu = s.lu ∧
    (writeCompletion n tag st c b k s).es = s.es ∧
    (writeCompletion n tag st c b k s).ap = s.ap ∧
    (writeCompletion n tag st c b k s).ec = s.ec ∧
    (writeCompletion n tag st c b k s).pending = s.pending := by simp [writeCompletion]

@[simp] theorem lowerInFlight_frame (n : Nat) (s : State) :
    (lowerInFlight n s).hp = s.hp ∧
    (lowerInFlight n s).bm = s.bm ∧
    (lowerInFlight n s).lu = s.lu ∧
    (lowerInFlight n s).es = s.es ∧
    (lowerInFlight n s).cu = s.cu ∧
    (lowerInFlight n s).ap = s.ap ∧
    (lowerInFlight n s).ec = s.ec ∧
    (lowerInFlight n s).pending = s.pending := by simp [lowerInFlight]

@[simp] theorem endDeletion_frame (n : Nat) (s : State) :
    (endDeletion n s).hp.fixed = s.hp.fixed ∧
    (endDeletion n s).hp.device = s.hp.device ∧
    (endDeletion n s).bm = s.bm ∧
    (endDeletion n s).lu = s.lu ∧
    (endDeletion n s).es = s.es ∧
    (endDeletion n s).cu = s.cu ∧
    (endDeletion n s).ec = s.ec ∧
    (endDeletion n s).pending = s.pending := by unfold endDeletion; split <;> simp

@[simp] theorem completeUnadmitted_frame (n : Nat) (tag : BitVec 32) (st : FrameStatus) (c : Subcode) (s : State) :
    (completeUnadmitted n tag st c s).hp.fixed = s.hp.fixed ∧
    (completeUnadmitted n tag st c s).hp.device = s.hp.device ∧
    (completeUnadmitted n tag st c s).bm = s.bm ∧
    (completeUnadmitted n tag st c s).lu = s.lu ∧
    (completeUnadmitted n tag st c s).es = s.es ∧
    (completeUnadmitted n tag st c s).ap = s.ap ∧
    (completeUnadmitted n tag st c s).ec = s.ec ∧
    (completeUnadmitted n tag st c s).pending = s.pending := by simp [completeUnadmitted]

@[simp] theorem markReady_frame (p : HeldEntry → Bool) (s : State) :
    (markReady p s).hp = s.hp ∧
    (markReady p s).bm = s.bm ∧
    (markReady p s).lu = s.lu ∧
    (markReady p s).es = s.es ∧
    (markReady p s).cu = s.cu ∧
    (markReady p s).ap = s.ap ∧
    (markReady p s).ec = s.ec ∧
    (markReady p s).pending = s.pending := by simp [markReady]

@[simp] theorem markAllReady_frame (s : State) :
    (markAllReady s).hp = s.hp ∧
    (markAllReady s).bm = s.bm ∧
    (markAllReady s).lu = s.lu ∧
    (markAllReady s).es = s.es ∧
    (markAllReady s).cu = s.cu ∧
    (markAllReady s).ap = s.ap ∧
    (markAllReady s).ec = s.ec ∧
    (markAllReady s).pending = s.pending := by simp [markAllReady]

@[simp] theorem markFlowReady_frame (n : Nat) (s : State) :
    (markFlowReady n s).hp = s.hp ∧
    (markFlowReady n s).bm = s.bm ∧
    (markFlowReady n s).lu = s.lu ∧
    (markFlowReady n s).es = s.es ∧
    (markFlowReady n s).cu = s.cu ∧
    (markFlowReady n s).ap = s.ap ∧
    (markFlowReady n s).ec = s.ec ∧
    (markFlowReady n s).pending = s.pending := by simp [markFlowReady]

@[simp] theorem clearHeld_frame (n : Nat) (s : State) :
    (clearHeld n s).hp = s.hp ∧
    (clearHeld n s).bm = s.bm ∧
    (clearHeld n s).lu = s.lu ∧
    (clearHeld n s).es = s.es ∧
    (clearHeld n s).cu = s.cu ∧
    (clearHeld n s).ap = s.ap ∧
    (clearHeld n s).ec = s.ec ∧
    (clearHeld n s).pending = s.pending := by simp [clearHeld]

/-! ### The Buffer Manager -/

@[simp] theorem strikeOne_frame (x : Upset) (s : State) :
    (strikeOne s x).hp = s.hp ∧
    (strikeOne s x).dfu = s.dfu ∧
    (strikeOne s x).lu = s.lu ∧
    (strikeOne s x).es = s.es ∧
    (strikeOne s x).cu = s.cu ∧
    (strikeOne s x).ap = s.ap ∧
    (strikeOne s x).ec = s.ec ∧
    (strikeOne s x).pending = s.pending := by cases x <;> simp [strikeOne]

@[simp] theorem strike_frame (us : List Upset) (s : State) :
    (strike us s).hp = s.hp ∧
    (strike us s).dfu = s.dfu ∧
    (strike us s).lu = s.lu ∧
    (strike us s).es = s.es ∧
    (strike us s).cu = s.cu ∧
    (strike us s).ap = s.ap ∧
    (strike us s).ec = s.ec ∧
    (strike us s).pending = s.pending := by
  unfold strike
  induction us generalizing s with
  | nil => simp
  | cons x us ih => simp [ih]

@[simp] theorem checkRecord_frame (r : Nat) (s : State) :
    (checkRecord r s).2.ec.fixed = s.ec.fixed ∧
    (checkRecord r s).2.hp = s.hp ∧
    (checkRecord r s).2.dfu = s.dfu ∧
    (checkRecord r s).2.lu = s.lu ∧
    (checkRecord r s).2.es = s.es ∧
    (checkRecord r s).2.cu = s.cu ∧
    (checkRecord r s).2.ap = s.ap ∧
    (checkRecord r s).2.pending = s.pending := by unfold checkRecord; split <;> simp

@[simp] theorem checkLink_frame (c : Nat) (s : State) :
    (checkLink c s).2.ec.fixed = s.ec.fixed ∧
    (checkLink c s).2.hp = s.hp ∧
    (checkLink c s).2.dfu = s.dfu ∧
    (checkLink c s).2.lu = s.lu ∧
    (checkLink c s).2.es = s.es ∧
    (checkLink c s).2.cu = s.cu ∧
    (checkLink c s).2.ap = s.ap ∧
    (checkLink c s).2.pending = s.pending := by unfold checkLink; split <;> simp

@[simp] theorem checkLinks_frame (cs : List Nat) (s : State) :
    (checkLinks cs s).2.ec.fixed = s.ec.fixed ∧
    (checkLinks cs s).2.hp = s.hp ∧
    (checkLinks cs s).2.dfu = s.dfu ∧
    (checkLinks cs s).2.lu = s.lu ∧
    (checkLinks cs s).2.es = s.es ∧
    (checkLinks cs s).2.cu = s.cu ∧
    (checkLinks cs s).2.ap = s.ap ∧
    (checkLinks cs s).2.pending = s.pending := by
  induction cs generalizing s with
  | nil => simp [checkLinks]
  | cons c cs ih =>
    have h := checkLink_frame c s
    unfold checkLinks
    split
    · rename_i s1 h1
      rw [h1] at h
      dsimp only at h; simp [ih, h]
    · rename_i s1 h1
      rw [h1] at h
      dsimp only at h; simp [h]

@[simp] theorem checkRecords_frame (cs : List Nat) (s : State) :
    (checkRecords cs s).2.ec.fixed = s.ec.fixed ∧
    (checkRecords cs s).2.hp = s.hp ∧
    (checkRecords cs s).2.dfu = s.dfu ∧
    (checkRecords cs s).2.lu = s.lu ∧
    (checkRecords cs s).2.es = s.es ∧
    (checkRecords cs s).2.cu = s.cu ∧
    (checkRecords cs s).2.ap = s.ap ∧
    (checkRecords cs s).2.pending = s.pending := by
  induction cs generalizing s with
  | nil => simp [checkRecords]
  | cons c cs ih =>
    have h := checkRecord_frame c s
    unfold checkRecords
    split
    · rename_i s1 h1
      rw [h1] at h
      dsimp only at h; simp [ih, h]
    · rename_i s1 h1
      rw [h1] at h
      dsimp only at h; simp [h]

@[simp] theorem checkCell_frame (c n : Nat) (s : State) :
    (checkCell c n s).2.ec.fixed = s.ec.fixed ∧
    (checkCell c n s).2.hp = s.hp ∧
    (checkCell c n s).2.dfu = s.dfu ∧
    (checkCell c n s).2.lu = s.lu ∧
    (checkCell c n s).2.es = s.es ∧
    (checkCell c n s).2.cu = s.cu ∧
    (checkCell c n s).2.ap = s.ap ∧
    (checkCell c n s).2.pending = s.pending := by simp [checkCell]

@[simp] theorem allocate_frame (n : Nat) (s : State) :
    (allocate n s).hp = s.hp ∧
    (allocate n s).dfu = s.dfu ∧
    (allocate n s).lu = s.lu ∧
    (allocate n s).es = s.es ∧
    (allocate n s).cu = s.cu ∧
    (allocate n s).ap = s.ap ∧
    (allocate n s).ec = s.ec ∧
    (allocate n s).pending = s.pending := by unfold allocate; (try dsimp only); split <;> simp

@[simp] theorem releaseCells_frame (f : FrameRecord) (s : State) :
    (releaseCells f s).hp = s.hp ∧
    (releaseCells f s).dfu = s.dfu ∧
    (releaseCells f s).lu = s.lu ∧
    (releaseCells f s).es = s.es ∧
    (releaseCells f s).cu = s.cu ∧
    (releaseCells f s).ap = s.ap ∧
    (releaseCells f s).ec = s.ec ∧
    (releaseCells f s).pending = s.pending := by unfold releaseCells; (try dsimp only); split <;> simp

@[simp] theorem releaseRecord_frame (r : Nat) (s : State) :
    (releaseRecord r s).hp = s.hp ∧
    (releaseRecord r s).dfu = s.dfu ∧
    (releaseRecord r s).lu = s.lu ∧
    (releaseRecord r s).es = s.es ∧
    (releaseRecord r s).cu = s.cu ∧
    (releaseRecord r s).ap = s.ap ∧
    (releaseRecord r s).ec = s.ec ∧
    (releaseRecord r s).pending = s.pending := by simp [releaseRecord]

@[simp] theorem admitRecord_frame (n : Nat) (d : Descriptor) (k r : Nat) (s : State) :
    (admitRecord n d k r s).hp = s.hp ∧
    (admitRecord n d k r s).dfu = s.dfu ∧
    (admitRecord n d k r s).lu = s.lu ∧
    (admitRecord n d k r s).es = s.es ∧
    (admitRecord n d k r s).cu = s.cu ∧
    (admitRecord n d k r s).ap = s.ap ∧
    (admitRecord n d k r s).ec = s.ec ∧
    (admitRecord n d k r s).pending = s.pending := by simp [admitRecord]

@[simp] theorem requestAdmission_frame (n : Nat) (d : Descriptor) (k : Nat) (s : State) :
    (requestAdmission n d k s).2.ec.fixed = s.ec.fixed ∧
    (requestAdmission n d k s).2.hp = s.hp ∧
    (requestAdmission n d k s).2.dfu = s.dfu ∧
    (requestAdmission n d k s).2.lu = s.lu ∧
    (requestAdmission n d k s).2.es = s.es ∧
    (requestAdmission n d k s).2.cu = s.cu ∧
    (requestAdmission n d k s).2.ap = s.ap ∧
    (requestAdmission n d k s).2.pending = s.pending := by
  unfold requestAdmission
  dsimp only
  split
  · simp
  · split
    · simp
    · split
      · simp
      · split
        · simp
        · rename_i r _ _
          have h := checkRecord_frame r s
          split
          · rename_i s1 h1
            rw [h1] at h
            exact h
          · rename_i s1 h1
            rw [h1] at h
            have h' := checkLinks_frame (allocationReads s1 k) s1
            split
            · rename_i s2 h2
              rw [h2] at h'
              simp_all
            · rename_i s2 h2
              rw [h2] at h'
              simp_all

@[simp] theorem fillByte_frame (r : Nat) (x : Byte) (s : State) :
    (fillByte r x s).2.ec.fixed = s.ec.fixed ∧
    (fillByte r x s).2.hp = s.hp ∧
    (fillByte r x s).2.dfu = s.dfu ∧
    (fillByte r x s).2.lu = s.lu ∧
    (fillByte r x s).2.es = s.es ∧
    (fillByte r x s).2.cu = s.cu ∧
    (fillByte r x s).2.ap = s.ap ∧
    (fillByte r x s).2.pending = s.pending := by
  unfold fillByte
  dsimp only
  split
  · simp
  · split
    · simp
    · split
      · rename_i s3 h3
        have h := congrArg Prod.snd h3
        dsimp only at h
        rw [← h]
        simp
      · rename_i s3 h3
        have h := congrArg Prod.snd h3
        dsimp only at h
        rw [← h]
        simp

@[simp] theorem fillBytes_frame (r : Nat) (xs : List Byte) (s : State) :
    (fillBytes r xs s).2.ec.fixed = s.ec.fixed ∧
    (fillBytes r xs s).2.hp = s.hp ∧
    (fillBytes r xs s).2.dfu = s.dfu ∧
    (fillBytes r xs s).2.lu = s.lu ∧
    (fillBytes r xs s).2.es = s.es ∧
    (fillBytes r xs s).2.cu = s.cu ∧
    (fillBytes r xs s).2.ap = s.ap ∧
    (fillBytes r xs s).2.pending = s.pending := by
  induction xs generalizing s with
  | nil => simp [fillBytes]
  | cons x xs ih =>
    have h := fillByte_frame r x s
    unfold fillBytes
    split
    · split
      · rename_i s1 h1
        rw [h1] at h
        dsimp only at h; simp [ih, h]
      · rename_i s1 h1
        rw [h1] at h
        dsimp only at h; simp [h]
    · simp

@[simp] theorem presentBytes_frame (r : Nat) (xs : List Byte) (s : State) :
    (presentBytes r xs s).2.ec.fixed = s.ec.fixed ∧
    (presentBytes r xs s).2.hp = s.hp ∧
    (presentBytes r xs s).2.dfu = s.dfu ∧
    (presentBytes r xs s).2.lu = s.lu ∧
    (presentBytes r xs s).2.es = s.es ∧
    (presentBytes r xs s).2.cu = s.cu ∧
    (presentBytes r xs s).2.ap = s.ap ∧
    (presentBytes r xs s).2.pending = s.pending := by
  have h := checkRecord_frame r s
  unfold presentBytes
  split
  · rename_i s1 h1
    rw [h1] at h
    dsimp only at h; simp [h]
  · rename_i s1 h1
    rw [h1] at h
    dsimp only at h; split <;> simp [h]

@[simp] theorem leaveQueue_frame (r : Nat) (s : State) :
    (leaveQueue r s).hp = s.hp ∧
    (leaveQueue r s).dfu = s.dfu ∧
    (leaveQueue r s).lu = s.lu ∧
    (leaveQueue r s).es = s.es ∧
    (leaveQueue r s).cu = s.cu ∧
    (leaveQueue r s).ap = s.ap ∧
    (leaveQueue r s).ec = s.ec ∧
    (leaveQueue r s).pending = s.pending := by simp [leaveQueue]

@[simp] theorem endFlush_frame (n : Nat) (s : State) :
    (endFlush n s).hp.fixed = s.hp.fixed ∧
    (endFlush n s).hp.device = s.hp.device ∧
    (endFlush n s).dfu = s.dfu ∧
    (endFlush n s).lu = s.lu ∧
    (endFlush n s).es = s.es ∧
    (endFlush n s).cu = s.cu ∧
    (endFlush n s).ec = s.ec ∧
    (endFlush n s).pending = s.pending := by unfold endFlush; split <;> simp

@[simp] theorem retireRecord_frame (r : Nat) (s : State) :
    (retireRecord r s).hp.fixed = s.hp.fixed ∧
    (retireRecord r s).hp.device = s.hp.device ∧
    (retireRecord r s).lu = s.lu ∧
    (retireRecord r s).es = s.es ∧
    (retireRecord r s).ap = s.ap ∧
    (retireRecord r s).ec = s.ec ∧
    (retireRecord r s).pending = s.pending := by simp [retireRecord]

@[simp] theorem retire_frame (r : Nat) (s : State) :
    (retire r s).hp.fixed = s.hp.fixed ∧
    (retire r s).hp.device = s.hp.device ∧
    (retire r s).lu = s.lu ∧
    (retire r s).es = s.es ∧
    (retire r s).ec = s.ec ∧
    (retire r s).pending = s.pending := by simp [retire]

@[simp] theorem takeLinkEnd_frame (r : Nat) (c : Option FrameCause) (s : State) :
    (takeLinkEnd r c s).hp.fixed = s.hp.fixed ∧
    (takeLinkEnd r c s).hp.device = s.hp.device ∧
    (takeLinkEnd r c s).lu = s.lu ∧
    (takeLinkEnd r c s).es = s.es ∧
    (takeLinkEnd r c s).ec = s.ec ∧
    (takeLinkEnd r c s).pending = s.pending := by unfold takeLinkEnd; (try dsimp only); split <;> (try split) <;> simp

/-! ### Links and the scheduler -/

@[simp] theorem setSerializer_frame (l : Nat) (z : Option Serializer) (s : State) :
    (setSerializer l z s).hp = s.hp ∧
    (setSerializer l z s).bm = s.bm ∧
    (setSerializer l z s).dfu = s.dfu ∧
    (setSerializer l z s).es = s.es ∧
    (setSerializer l z s).cu = s.cu ∧
    (setSerializer l z s).ap = s.ap ∧
    (setSerializer l z s).ec = s.ec ∧
    (setSerializer l z s).pending = s.pending := by simp [setSerializer]

@[simp] theorem stopSerializer_frame (l : Nat) (s : State) :
    (stopSerializer l s).hp = s.hp ∧
    (stopSerializer l s).bm = s.bm ∧
    (stopSerializer l s).dfu = s.dfu ∧
    (stopSerializer l s).es = s.es ∧
    (stopSerializer l s).cu = s.cu ∧
    (stopSerializer l s).ap = s.ap ∧
    (stopSerializer l s).ec = s.ec ∧
    (stopSerializer l s).pending = s.pending := by unfold stopSerializer; split <;> simp

@[simp] theorem abortFrame_frame (l : Nat) (c : FrameCause) (s : State) :
    (abortFrame l c s).hp.fixed = s.hp.fixed ∧
    (abortFrame l c s).hp.device = s.hp.device ∧
    (abortFrame l c s).es = s.es ∧
    (abortFrame l c s).ec = s.ec ∧
    (abortFrame l c s).pending = s.pending := by unfold abortFrame; split <;> simp

@[simp] theorem goodFrame_frame (l : Nat) (s : State) :
    (goodFrame l s).hp.fixed = s.hp.fixed ∧
    (goodFrame l s).hp.device = s.hp.device ∧
    (goodFrame l s).es = s.es ∧
    (goodFrame l s).ec = s.ec ∧
    (goodFrame l s).pending = s.pending := by unfold goodFrame; split <;> simp

@[simp] theorem beginCell_frame (l : Nat) (s : State) :
    (beginCell l s).hp.fixed = s.hp.fixed ∧
    (beginCell l s).hp.device = s.hp.device ∧
    (beginCell l s).ec.fixed = s.ec.fixed ∧
    (beginCell l s).es = s.es ∧
    (beginCell l s).pending = s.pending := by
  unfold beginCell
  split
  · simp
  · rename_i z _
    have h := checkCell_frame z.nextCell (cellLength (s.frame z.record) z.sent) s
    split
    · rename_i s1 h1
      rw [h1] at h
      dsimp only at h; simp [h]
    · rename_i s1 h1
      rw [h1] at h
      dsimp only at h; simp [h]

@[simp] theorem applyActivation_frame (l : Nat) (s : State) :
    (applyActivation l s).hp.fixed = s.hp.fixed ∧
    (applyActivation l s).hp.device = s.hp.device ∧
    (applyActivation l s).bm = s.bm ∧
    (applyActivation l s).dfu = s.dfu ∧
    (applyActivation l s).lu = s.lu ∧
    (applyActivation l s).cu = s.cu ∧
    (applyActivation l s).ec = s.ec ∧
    (applyActivation l s).pending = s.pending := by simp [applyActivation]

@[simp] theorem grantHead_frame (l n r : Nat) (s : State) :
    (grantHead l n r s).hp.fixed = s.hp.fixed ∧
    (grantHead l n r s).hp.device = s.hp.device ∧
    (grantHead l n r s).ec.fixed = s.ec.fixed ∧
    (grantHead l n r s).es = s.es ∧
    (grantHead l n r s).pending = s.pending := by simp [grantHead]

@[simp] theorem readHeads_frame (cs : List Nat) (s : State) :
    (readHeads cs s).2.ec.fixed = s.ec.fixed ∧
    (readHeads cs s).2.hp = s.hp ∧
    (readHeads cs s).2.dfu = s.dfu ∧
    (readHeads cs s).2.lu = s.lu ∧
    (readHeads cs s).2.cu = s.cu ∧
    (readHeads cs s).2.ap = s.ap ∧
    (readHeads cs s).2.pending = s.pending := by
  induction cs generalizing s with
  | nil => simp [readHeads]
  | cons c cs ih =>
    have h := checkRecord_frame c s
    unfold readHeads
    split
    · simp [ih]
    · split
      · rename_i s1 h1
        rw [h1] at h
        dsimp only at h; simp [ih, h]
      · rename_i s1 h1
        rw [h1] at h
        dsimp only at h; simp [h]

@[simp] theorem award_frame (l n : Nat) (f : Scheduler → Scheduler) (s : State) :
    (award l n f s).2.hp.fixed = s.hp.fixed ∧
    (award l n f s).2.hp.device = s.hp.device ∧
    (award l n f s).2.ec.fixed = s.ec.fixed ∧
    (award l n f s).2.pending = s.pending := by unfold award; split <;> simp

@[simp] theorem awardSlot_frame (l p n : Nat) (s : State) :
    (awardSlot l p n s).2.hp.fixed = s.hp.fixed ∧
    (awardSlot l p n s).2.hp.device = s.hp.device ∧
    (awardSlot l p n s).2.ec.fixed = s.ec.fixed ∧
    (awardSlot l p n s).2.pending = s.pending := by simp [awardSlot]

@[simp] theorem calendarWrap_frame (l : Nat) (s : State) :
    (calendarWrap l s).2.hp.fixed = s.hp.fixed ∧
    (calendarWrap l s).2.hp.device = s.hp.device ∧
    (calendarWrap l s).2.ec.fixed = s.ec.fixed ∧
    (calendarWrap l s).2.pending = s.pending := by unfold calendarWrap; (try dsimp only); split <;> split <;> simp

@[simp] theorem calendarTier_frame (l : Nat) (s : State) :
    (calendarTier l s).2.hp.fixed = s.hp.fixed ∧
    (calendarTier l s).2.hp.device = s.hp.device ∧
    (calendarTier l s).2.ec.fixed = s.ec.fixed ∧
    (calendarTier l s).2.pending = s.pending := by unfold calendarTier; (try dsimp only); split <;> simp

@[simp] theorem arbitrate_frame (l : Nat) (s : State) :
    (arbitrate l s).2.hp.fixed = s.hp.fixed ∧
    (arbitrate l s).2.hp.device = s.hp.device ∧
    (arbitrate l s).2.ec.fixed = s.ec.fixed ∧
    (arbitrate l s).2.pending = s.pending := by unfold arbitrate; split <;> simp

@[simp] theorem considerTimes_frame (k l : Nat) (s : State) :
    (considerTimes k l s).hp.fixed = s.hp.fixed ∧
    (considerTimes k l s).hp.device = s.hp.device ∧
    (considerTimes k l s).ec.fixed = s.ec.fixed ∧
    (considerTimes k l s).pending = s.pending := by
  induction k generalizing s with
  | zero => simp [considerTimes]
  | succ k ih =>
    have h := readHeads_frame (heads s) s
    unfold considerTimes
    split
    · split
      · split <;> simp
      · split
        · rename_i s1 h1
          rw [h1] at h
          dsimp only at h; simp [h]
        · rename_i s1 h1
          rw [h1] at h
          dsimp only at h
          split
          · have h' := arbitrate_frame l s1
            split
            · rename_i s2 h2
              rw [h2] at h'
              dsimp only at h'; split <;> simp [ih, h, h']
            · rename_i s2 h2
              rw [h2] at h'
              dsimp only at h'; simp [h, h']
          · simp [h]
    · simp

@[simp] theorem consider_frame (l : Nat) (s : State) :
    (consider l s).hp.fixed = s.hp.fixed ∧
    (consider l s).hp.device = s.hp.device ∧
    (consider l s).ec.fixed = s.ec.fixed ∧
    (consider l s).pending = s.pending := by simp [consider]

@[simp] theorem clearCredit_frame (l : Nat) (x : LinkState) (s : State) :
    (clearCredit l x s).hp = s.hp ∧
    (clearCredit l x s).bm = s.bm ∧
    (clearCredit l x s).dfu = s.dfu ∧
    (clearCredit l x s).es = s.es ∧
    (clearCredit l x s).cu = s.cu ∧
    (clearCredit l x s).ap = s.ap ∧
    (clearCredit l x s).ec = s.ec ∧
    (clearCredit l x s).pending = s.pending := by simp [clearCredit]

@[simp] theorem endLinkCommand_frame (l : Nat) (st : AdminStatus) (s : State) :
    (endLinkCommand l st s).hp.fixed = s.hp.fixed ∧
    (endLinkCommand l st s).hp.device = s.hp.device ∧
    (endLinkCommand l st s).bm = s.bm ∧
    (endLinkCommand l st s).dfu = s.dfu ∧
    (endLinkCommand l st s).es = s.es ∧
    (endLinkCommand l st s).cu = s.cu ∧
    (endLinkCommand l st s).ec = s.ec ∧
    (endLinkCommand l st s).pending = s.pending := by unfold endLinkCommand; (try dsimp only); split <;> simp

@[simp] theorem endDrain_frame (l : Nat) (s : State) :
    (endDrain l s).hp.fixed = s.hp.fixed ∧
    (endDrain l s).hp.device = s.hp.device ∧
    (endDrain l s).bm = s.bm ∧
    (endDrain l s).dfu = s.dfu ∧
    (endDrain l s).es = s.es ∧
    (endDrain l s).cu = s.cu ∧
    (endDrain l s).ec = s.ec ∧
    (endDrain l s).pending = s.pending := by simp [endDrain]

@[simp] theorem afterLinkEnd_frame (l : Nat) (s : State) :
    (afterLinkEnd l s).hp.fixed = s.hp.fixed ∧
    (afterLinkEnd l s).hp.device = s.hp.device ∧
    (afterLinkEnd l s).ec.fixed = s.ec.fixed ∧
    (afterLinkEnd l s).pending = s.pending := by unfold afterLinkEnd; split <;> simp

@[simp] theorem applyAtDeparture_frame (l : Nat) (s : State) :
    (applyAtDeparture l s).hp.fixed = s.hp.fixed ∧
    (applyAtDeparture l s).hp.device = s.hp.device ∧
    (applyAtDeparture l s).bm = s.bm ∧
    (applyAtDeparture l s).dfu = s.dfu ∧
    (applyAtDeparture l s).lu = s.lu ∧
    (applyAtDeparture l s).cu = s.cu ∧
    (applyAtDeparture l s).ec = s.ec ∧
    (applyAtDeparture l s).pending = s.pending := by unfold applyAtDeparture; split <;> simp

@[simp] theorem loseFrame_frame (l : Nat) (s : State) :
    (loseFrame l s).hp.fixed = s.hp.fixed ∧
    (loseFrame l s).hp.device = s.hp.device ∧
    (loseFrame l s).es = s.es ∧
    (loseFrame l s).ec = s.ec ∧
    (loseFrame l s).pending = s.pending := by unfold loseFrame; split <;> (try split) <;> simp

@[simp] theorem checkSending_frame (l : Nat) (s : State) :
    (checkSending l s).2.ec.fixed = s.ec.fixed ∧
    (checkSending l s).2.hp = s.hp ∧
    (checkSending l s).2.dfu = s.dfu ∧
    (checkSending l s).2.es = s.es ∧
    (checkSending l s).2.cu = s.cu ∧
    (checkSending l s).2.ap = s.ap ∧
    (checkSending l s).2.pending = s.pending := by
  unfold checkSending
  split
  · simp
  · rename_i z _
    have h := checkRecord_frame z.record s
    split
    · simp
    · split
      · rename_i s1 h1
        rw [h1] at h
        dsimp only at h; simp [h]
      · rename_i s1 h1
        rw [h1] at h
        dsimp only at h; simp [h]

@[simp] theorem failLink_frame (l : Nat) (c : LinkCause) (s : State) :
    (failLink l c s).hp.fixed = s.hp.fixed ∧
    (failLink l c s).hp.device = s.hp.device ∧
    (failLink l c s).ec.fixed = s.ec.fixed ∧
    (failLink l c s).pending = s.pending := by unfold failLink; (try dsimp only); split <;> split <;> simp

@[simp] theorem failLinkEvent_frame (l : Nat) (c : LinkCause) (s : State) :
    (failLinkEvent l c s).hp.fixed = s.hp.fixed ∧
    (failLinkEvent l c s).hp.device = s.hp.device ∧
    (failLinkEvent l c s).ec.fixed = s.ec.fixed ∧
    (failLinkEvent l c s).pending = s.pending := by
  have h := checkSending_frame l s
  unfold failLinkEvent
  split
  · rename_i s1 h1
    rw [h1] at h
    dsimp only at h; simp [h]
  · rename_i s1 h1
    rw [h1] at h
    dsimp only at h; simp [h]

@[simp] theorem protocolError_frame (l : Nat) (s : State) :
    (protocolError l s).hp.fixed = s.hp.fixed ∧
    (protocolError l s).hp.device = s.hp.device ∧
    (protocolError l s).ec.fixed = s.ec.fixed ∧
    (protocolError l s).pending = s.pending := by unfold protocolError; split <;> simp

@[simp] theorem countSent_frame (r : Nat) (s : State) :
    (countSent r s).hp = s.hp ∧
    (countSent r s).dfu = s.dfu ∧
    (countSent r s).lu = s.lu ∧
    (countSent r s).es = s.es ∧
    (countSent r s).cu = s.cu ∧
    (countSent r s).ap = s.ap ∧
    (countSent r s).ec = s.ec ∧
    (countSent r s).pending = s.pending := by unfold countSent; (try dsimp only); split <;> simp

@[simp] theorem nextCell_frame (l : Nat) (z : Serializer) (s : State) :
    (nextCell l z s).hp.fixed = s.hp.fixed ∧
    (nextCell l z s).hp.device = s.hp.device ∧
    (nextCell l z s).ec.fixed = s.ec.fixed ∧
    (nextCell l z s).pending = s.pending := by unfold nextCell; (try dsimp only); split <;> (try split) <;> simp

@[simp] theorem endCell_frame (l : Nat) (z : Serializer) (s : State) :
    (endCell l z s).hp.fixed = s.hp.fixed ∧
    (endCell l z s).hp.device = s.hp.device ∧
    (endCell l z s).ec.fixed = s.ec.fixed ∧
    (endCell l z s).pending = s.pending := by
  have h := checkRecord_frame z.record (s.send l (.cell (cellPayload s z.nextCell (cellLength (s.frame z.record) z.sent))))
  unfold endCell
  dsimp only
  split
  · rename_i s1 h1
    rw [h1] at h
    dsimp only at h; simp [h]
  · rename_i s1 h1
    rw [h1] at h
    have h' := checkLink_frame z.nextCell s1
    by_cases hl : z.sent + 1 = z.cellCount
    · dsimp only at h; simp [hl, h]
    · simp only [hl, if_false]
      split
      · rename_i s2 h2
        rw [h2] at h'
        simp_all
      · rename_i s2 h2
        rw [h2] at h'
        simp_all

@[simp] theorem takeFillReport_frame (l r k : Nat) (s : State) :
    (takeFillReport l r k s).hp.fixed = s.hp.fixed ∧
    (takeFillReport l r k s).hp.device = s.hp.device ∧
    (takeFillReport l r k s).ec.fixed = s.ec.fixed ∧
    (takeFillReport l r k s).es = s.es ∧
    (takeFillReport l r k s).pending = s.pending := by unfold takeFillReport; split <;> (try split) <;> (try split) <;> simp

@[simp] theorem abortEvent_frame (l : Nat) (c : FrameCause) (s : State) :
    (abortEvent l c s).hp.fixed = s.hp.fixed ∧
    (abortEvent l c s).hp.device = s.hp.device ∧
    (abortEvent l c s).ec.fixed = s.ec.fixed ∧
    (abortEvent l c s).pending = s.pending := by
  have h := checkSending_frame l s
  unfold abortEvent
  split
  · rename_i s1 h1
    rw [h1] at h
    dsimp only at h; simp [h]
  · rename_i s1 h1
    rw [h1] at h
    dsimp only at h; simp [h]

/-! ### Device states -/

@[simp] theorem stopHoldoffs_frame (s : State) :
    (stopHoldoffs s).hp = s.hp ∧
    (stopHoldoffs s).bm = s.bm ∧
    (stopHoldoffs s).dfu = s.dfu ∧
    (stopHoldoffs s).lu = s.lu ∧
    (stopHoldoffs s).es = s.es ∧
    (stopHoldoffs s).ap = s.ap ∧
    (stopHoldoffs s).ec = s.ec ∧
    (stopHoldoffs s).pending = s.pending := by
  unfold stopHoldoffs
  simp [List.range, List.range.loop, cqTotal]

@[simp] theorem dropReports_frame (s : State) :
    (dropReports s).hp = s.hp ∧
    (dropReports s).dfu = s.dfu ∧
    (dropReports s).cu = s.cu ∧
    (dropReports s).ap = s.ap ∧
    (dropReports s).ec = s.ec ∧
    (dropReports s).pending = s.pending := by simp [dropReports]

@[simp] theorem quietLink_frame (l : Nat) (s : State) :
    (quietLink l s).hp = s.hp ∧
    (quietLink l s).bm = s.bm ∧
    (quietLink l s).dfu = s.dfu ∧
    (quietLink l s).es = s.es ∧
    (quietLink l s).cu = s.cu ∧
    (quietLink l s).ap = s.ap ∧
    (quietLink l s).ec = s.ec ∧
    (quietLink l s).pending = s.pending := by simp [quietLink]

@[simp] theorem markAbort_frame (l : Nat) (s : State) :
    (markAbort l s).hp = s.hp ∧
    (markAbort l s).bm = s.bm ∧
    (markAbort l s).dfu = s.dfu ∧
    (markAbort l s).es = s.es ∧
    (markAbort l s).cu = s.cu ∧
    (markAbort l s).ap = s.ap ∧
    (markAbort l s).ec = s.ec ∧
    (markAbort l s).pending = s.pending := by unfold markAbort; split <;> simp

@[simp] theorem sendDown_frame (l : Nat) (s : State) :
    (sendDown l s).hp = s.hp ∧
    (sendDown l s).bm = s.bm ∧
    (sendDown l s).dfu = s.dfu ∧
    (sendDown l s).es = s.es ∧
    (sendDown l s).cu = s.cu ∧
    (sendDown l s).ap = s.ap ∧
    (sendDown l s).ec = s.ec ∧
    (sendDown l s).pending = s.pending := by unfold sendDown; split <;> simp

@[simp] theorem haltLink_frame (l : Nat) (s : State) :
    (haltLink l s).hp = s.hp ∧
    (haltLink l s).bm = s.bm ∧
    (haltLink l s).dfu = s.dfu ∧
    (haltLink l s).es = s.es ∧
    (haltLink l s).cu = s.cu ∧
    (haltLink l s).ap = s.ap ∧
    (haltLink l s).ec = s.ec ∧
    (haltLink l s).pending = s.pending := by simp [haltLink]

@[simp] theorem takeDownLink_frame (l : Nat) (s : State) :
    (takeDownLink l s).hp = s.hp ∧
    (takeDownLink l s).bm = s.bm ∧
    (takeDownLink l s).dfu = s.dfu ∧
    (takeDownLink l s).es = s.es ∧
    (takeDownLink l s).cu = s.cu ∧
    (takeDownLink l s).ap = s.ap ∧
    (takeDownLink l s).ec = s.ec ∧
    (takeDownLink l s).pending = s.pending := by unfold takeDownLink; (try dsimp only); split <;> simp

@[simp] theorem noticeTakenDown_frame (b : State) (l : Nat) (s : State) :
    (noticeTakenDown b l s).hp.fixed = s.hp.fixed ∧
    (noticeTakenDown b l s).hp.device = s.hp.device ∧
    (noticeTakenDown b l s).ec.fixed = s.ec.fixed ∧
    (noticeTakenDown b l s).bm = s.bm ∧
    (noticeTakenDown b l s).dfu = s.dfu ∧
    (noticeTakenDown b l s).lu = s.lu ∧
    (noticeTakenDown b l s).es = s.es ∧
    (noticeTakenDown b l s).cu = s.cu ∧
    (noticeTakenDown b l s).ap = s.ap ∧
    (noticeTakenDown b l s).pending = s.pending := by unfold noticeTakenDown; split <;> simp

@[simp] theorem selfResetLink_frame (l : Nat) (s : State) :
    (selfResetLink l s).hp = s.hp ∧
    (selfResetLink l s).bm = s.bm ∧
    (selfResetLink l s).dfu = s.dfu ∧
    (selfResetLink l s).es = s.es ∧
    (selfResetLink l s).cu = s.cu ∧
    (selfResetLink l s).ap = s.ap ∧
    (selfResetLink l s).ec = s.ec ∧
    (selfResetLink l s).pending = s.pending := by simp [selfResetLink]

@[simp] theorem resetLink_frame (b : Bool) (l : Nat) (s : State) :
    (resetLink b l s).hp = s.hp ∧
    (resetLink b l s).bm = s.bm ∧
    (resetLink b l s).dfu = s.dfu ∧
    (resetLink b l s).es = s.es ∧
    (resetLink b l s).cu = s.cu ∧
    (resetLink b l s).ap = s.ap ∧
    (resetLink b l s).ec = s.ec ∧
    (resetLink b l s).pending = s.pending := by unfold resetLink; split <;> simp

@[simp] theorem cutOffReads_frame (s : State) :
    (cutOffReads s).hp.fixed = s.hp.fixed ∧
    (cutOffReads s).hp.device = s.hp.device ∧
    (cutOffReads s).bm = s.bm ∧
    (cutOffReads s).dfu = s.dfu ∧
    (cutOffReads s).lu = s.lu ∧
    (cutOffReads s).es = s.es ∧
    (cutOffReads s).cu = s.cu ∧
    (cutOffReads s).ap = s.ap ∧
    (cutOffReads s).ec = s.ec ∧
    (cutOffReads s).pending = s.pending := by
  unfold cutOffReads
  induction List.range readTotal generalizing s with
  | nil => simp
  | cons i is ih =>
    simp only [List.foldl_cons]
    split <;> simp [ih]

@[simp] theorem freeRead_frame (i : Nat) (s : State) :
    (freeRead i s).hp.fixed = s.hp.fixed ∧
    (freeRead i s).hp.device = s.hp.device ∧
    (freeRead i s).bm = s.bm ∧
    (freeRead i s).dfu = s.dfu ∧
    (freeRead i s).lu = s.lu ∧
    (freeRead i s).es = s.es ∧
    (freeRead i s).cu = s.cu ∧
    (freeRead i s).ap = s.ap ∧
    (freeRead i s).ec = s.ec ∧
    (freeRead i s).pending = s.pending := by simp [freeRead]

/-! ### Index ports -/

@[simp] theorem refuseIndex_frame (p : Nat) (v : Word32) (s : State) :
    (refuseIndex p v s).hp.fixed = s.hp.fixed ∧
    (refuseIndex p v s).hp.device = s.hp.device ∧
    (refuseIndex p v s).ec.fixed = s.ec.fixed ∧
    (refuseIndex p v s).bm = s.bm ∧
    (refuseIndex p v s).dfu = s.dfu ∧
    (refuseIndex p v s).lu = s.lu ∧
    (refuseIndex p v s).es = s.es ∧
    (refuseIndex p v s).cu = s.cu ∧
    (refuseIndex p v s).ap = s.ap ∧
    (refuseIndex p v s).pending = s.pending := by simp [refuseIndex]

@[simp] theorem takeSqProducer_frame (n : Nat) (v : Word32) (s : State) :
    (takeSqProducer n v s).hp.fixed = s.hp.fixed ∧
    (takeSqProducer n v s).hp.device = s.hp.device ∧
    (takeSqProducer n v s).ec.fixed = s.ec.fixed ∧
    (takeSqProducer n v s).bm = s.bm ∧
    (takeSqProducer n v s).lu = s.lu ∧
    (takeSqProducer n v s).es = s.es ∧
    (takeSqProducer n v s).cu = s.cu ∧
    (takeSqProducer n v s).ap = s.ap ∧
    (takeSqProducer n v s).pending = s.pending := by unfold takeSqProducer; split <;> simp

@[simp] theorem writeSqPort_frame (n : Nat) (v : Word32) (s : State) :
    (writeSqPort n v s).hp.fixed = s.hp.fixed ∧
    (writeSqPort n v s).hp.device = s.hp.device ∧
    (writeSqPort n v s).ec.fixed = s.ec.fixed ∧
    (writeSqPort n v s).bm = s.bm ∧
    (writeSqPort n v s).lu = s.lu ∧
    (writeSqPort n v s).es = s.es ∧
    (writeSqPort n v s).cu = s.cu ∧
    (writeSqPort n v s).ap = s.ap ∧
    (writeSqPort n v s).pending = s.pending := by unfold writeSqPort; split <;> simp

@[simp] theorem writeAsrPort_frame (v : Word32) (s : State) :
    (writeAsrPort v s).hp.fixed = s.hp.fixed ∧
    (writeAsrPort v s).hp.device = s.hp.device ∧
    (writeAsrPort v s).ec.fixed = s.ec.fixed ∧
    (writeAsrPort v s).bm = s.bm ∧
    (writeAsrPort v s).dfu = s.dfu ∧
    (writeAsrPort v s).lu = s.lu ∧
    (writeAsrPort v s).es = s.es ∧
    (writeAsrPort v s).cu = s.cu ∧
    (writeAsrPort v s).pending = s.pending := by unfold writeAsrPort; split <;> (try split) <;> simp

@[simp] theorem takeCqConsumer_frame (n : Nat) (v : Word32) (s : State) :
    (takeCqConsumer n v s).hp.fixed = s.hp.fixed ∧
    (takeCqConsumer n v s).hp.device = s.hp.device ∧
    (takeCqConsumer n v s).ec.fixed = s.ec.fixed ∧
    (takeCqConsumer n v s).bm = s.bm ∧
    (takeCqConsumer n v s).dfu = s.dfu ∧
    (takeCqConsumer n v s).lu = s.lu ∧
    (takeCqConsumer n v s).es = s.es ∧
    (takeCqConsumer n v s).ap = s.ap ∧
    (takeCqConsumer n v s).pending = s.pending := by unfold takeCqConsumer; (try dsimp only); split <;> (try split) <;> simp

@[simp] theorem writeCqPort_frame (n : Nat) (v : Word32) (s : State) :
    (writeCqPort n v s).hp.fixed = s.hp.fixed ∧
    (writeCqPort n v s).hp.device = s.hp.device ∧
    (writeCqPort n v s).ec.fixed = s.ec.fixed ∧
    (writeCqPort n v s).bm = s.bm ∧
    (writeCqPort n v s).dfu = s.dfu ∧
    (writeCqPort n v s).lu = s.lu ∧
    (writeCqPort n v s).es = s.es ∧
    (writeCqPort n v s).ap = s.ap ∧
    (writeCqPort n v s).pending = s.pending := by unfold writeCqPort; split <;> simp

@[simp] theorem writeAcrPort_frame (v : Word32) (s : State) :
    (writeAcrPort v s).hp.fixed = s.hp.fixed ∧
    (writeAcrPort v s).hp.device = s.hp.device ∧
    (writeAcrPort v s).ec.fixed = s.ec.fixed ∧
    (writeAcrPort v s).bm = s.bm ∧
    (writeAcrPort v s).dfu = s.dfu ∧
    (writeAcrPort v s).lu = s.lu ∧
    (writeAcrPort v s).es = s.es ∧
    (writeAcrPort v s).cu = s.cu ∧
    (writeAcrPort v s).pending = s.pending := by unfold writeAcrPort; (try dsimp only); split <;> (try split) <;> (try split) <;> simp

@[simp] theorem writeNrPort_frame (v : Word32) (s : State) :
    (writeNrPort v s).hp.fixed = s.hp.fixed ∧
    (writeNrPort v s).hp.device = s.hp.device ∧
    (writeNrPort v s).ec.fixed = s.ec.fixed ∧
    (writeNrPort v s).bm = s.bm ∧
    (writeNrPort v s).dfu = s.dfu ∧
    (writeNrPort v s).lu = s.lu ∧
    (writeNrPort v s).es = s.es ∧
    (writeNrPort v s).cu = s.cu ∧
    (writeNrPort v s).ap = s.ap ∧
    (writeNrPort v s).pending = s.pending := by unfold writeNrPort; (try dsimp only); split <;> (try split) <;> (try split) <;> simp

/-! ### The fetch path -/

@[simp] theorem grantRead_frame (i n : Nat) (s : State) :
    (grantRead i n s).hp.fixed = s.hp.fixed ∧
    (grantRead i n s).hp.device = s.hp.device ∧
    (grantRead i n s).bm = s.bm ∧
    (grantRead i n s).lu = s.lu ∧
    (grantRead i n s).es = s.es ∧
    (grantRead i n s).ap = s.ap ∧
    (grantRead i n s).ec = s.ec ∧
    (grantRead i n s).pending = s.pending := by simp [grantRead]

@[simp] theorem issuePayload_frame (i : Nat) (g : Segment) (o : Nat) (s : State) :
    (issuePayload i g o s).hp.fixed = s.hp.fixed ∧
    (issuePayload i g o s).hp.device = s.hp.device ∧
    (issuePayload i g o s).bm = s.bm ∧
    (issuePayload i g o s).dfu = s.dfu ∧
    (issuePayload i g o s).lu = s.lu ∧
    (issuePayload i g o s).es = s.es ∧
    (issuePayload i g o s).cu = s.cu ∧
    (issuePayload i g o s).ap = s.ap ∧
    (issuePayload i g o s).ec = s.ec ∧
    (issuePayload i g o s).pending = s.pending := by simp [issuePayload]

@[simp] theorem beginPayload_frame (i n r : Nat) (gs : List Segment) (s : State) :
    (beginPayload i n r gs s).hp.fixed = s.hp.fixed ∧
    (beginPayload i n r gs s).hp.device = s.hp.device ∧
    (beginPayload i n r gs s).bm = s.bm ∧
    (beginPayload i n r gs s).lu = s.lu ∧
    (beginPayload i n r gs s).es = s.es ∧
    (beginPayload i n r gs s).cu = s.cu ∧
    (beginPayload i n r gs s).ap = s.ap ∧
    (beginPayload i n r gs s).ec = s.ec ∧
    (beginPayload i n r gs s).pending = s.pending := by unfold beginPayload; (try dsimp only); split <;> simp

@[simp] theorem endFetch_frame (i r : Nat) (b : Bool) (s : State) :
    (endFetch i r b s).hp = s.hp ∧
    (endFetch i r b s).lu = s.lu ∧
    (endFetch i r b s).es = s.es ∧
    (endFetch i r b s).cu = s.cu ∧
    (endFetch i r b s).ap = s.ap ∧
    (endFetch i r b s).ec = s.ec ∧
    (endFetch i r b s).pending = s.pending := by simp [endFetch]

@[simp] theorem advancePayload_frame (i n r : Nat) (gs : List Segment) (c o k : Nat) (s : State) :
    (advancePayload i n r gs c o k s).hp.fixed = s.hp.fixed ∧
    (advancePayload i n r gs c o k s).hp.device = s.hp.device ∧
    (advancePayload i n r gs c o k s).lu = s.lu ∧
    (advancePayload i n r gs c o k s).es = s.es ∧
    (advancePayload i n r gs c o k s).cu = s.cu ∧
    (advancePayload i n r gs c o k s).ap = s.ap ∧
    (advancePayload i n r gs c o k s).ec = s.ec ∧
    (advancePayload i n r gs c o k s).pending = s.pending := by unfold advancePayload; split <;> (try split) <;> (try split) <;> simp

@[simp] theorem takeHead_frame (n : Nat) (s : State) :
    (takeHead n s).hp = s.hp ∧
    (takeHead n s).bm = s.bm ∧
    (takeHead n s).lu = s.lu ∧
    (takeHead n s).es = s.es ∧
    (takeHead n s).cu = s.cu ∧
    (takeHead n s).ap = s.ap ∧
    (takeHead n s).ec = s.ec ∧
    (takeHead n s).pending = s.pending := by simp [takeHead]

@[simp] theorem startAdmitted_frame (i n r : Nat) (d : Descriptor) (s : State) :
    (startAdmitted i n r d s).hp.fixed = s.hp.fixed ∧
    (startAdmitted i n r d s).hp.device = s.hp.device ∧
    (startAdmitted i n r d s).ec.fixed = s.ec.fixed ∧
    (startAdmitted i n r d s).pending = s.pending := by unfold startAdmitted; (try dsimp only); split <;> simp

@[simp] theorem holdDescriptor_frame (n : Nat) (h : HeldCopy) (s : State) :
    (holdDescriptor n h s).hp = s.hp ∧
    (holdDescriptor n h s).bm = s.bm ∧
    (holdDescriptor n h s).lu = s.lu ∧
    (holdDescriptor n h s).es = s.es ∧
    (holdDescriptor n h s).cu = s.cu ∧
    (holdDescriptor n h s).ap = s.ap ∧
    (holdDescriptor n h s).ec = s.ec ∧
    (holdDescriptor n h s).pending = s.pending := by simp [holdDescriptor]

@[simp] theorem takeDescriptor_frame (i n k : Nat) (d : Descriptor) (s : State) :
    (takeDescriptor i n k d s).hp.fixed = s.hp.fixed ∧
    (takeDescriptor i n k d s).hp.device = s.hp.device ∧
    (takeDescriptor i n k d s).ec.fixed = s.ec.fixed ∧
    (takeDescriptor i n k d s).pending = s.pending := by
  unfold takeDescriptor
  split
  · simp
  · have h := requestAdmission_frame n d (cellNeed d.length) s
    split
    · rename_i s1 h1; rw [h1] at h; dsimp only at h; simp [h]
    · rename_i s1 h1; rw [h1] at h; dsimp only at h; simp [h]
    · rename_i s1 h1; rw [h1] at h; dsimp only at h; split <;> simp [h]
    · rename_i s1 h1; rw [h1] at h; dsimp only at h; simp [h]

@[simp] theorem releaseRead_frame (i n : Nat) (s : State) :
    (releaseRead i n s).hp = s.hp ∧
    (releaseRead i n s).bm = s.bm ∧
    (releaseRead i n s).lu = s.lu ∧
    (releaseRead i n s).es = s.es ∧
    (releaseRead i n s).ap = s.ap ∧
    (releaseRead i n s).ec = s.ec ∧
    (releaseRead i n s).pending = s.pending := by simp [releaseRead]

@[simp] theorem returnDescriptor_frame (i n k : Nat) (x : BitVec 512) (s : State) :
    (returnDescriptor i n k x s).hp.fixed = s.hp.fixed ∧
    (returnDescriptor i n k x s).hp.device = s.hp.device ∧
    (returnDescriptor i n k x s).ec.fixed = s.ec.fixed ∧
    (returnDescriptor i n k x s).pending = s.pending := by unfold returnDescriptor; split <;> simp

@[simp] theorem failDescriptor_frame (i n k : Nat) (s : State) :
    (failDescriptor i n k s).hp.fixed = s.hp.fixed ∧
    (failDescriptor i n k s).hp.device = s.hp.device ∧
    (failDescriptor i n k s).ec.fixed = s.ec.fixed ∧
    (failDescriptor i n k s).bm = s.bm ∧
    (failDescriptor i n k s).lu = s.lu ∧
    (failDescriptor i n k s).es = s.es ∧
    (failDescriptor i n k s).pending = s.pending := by unfold failDescriptor; (try dsimp only); split <;> simp

@[simp] theorem reportFill_frame (r : Nat) (s : State) :
    (reportFill r s).hp.fixed = s.hp.fixed ∧
    (reportFill r s).hp.device = s.hp.device ∧
    (reportFill r s).ec.fixed = s.ec.fixed ∧
    (reportFill r s).pending = s.pending := by unfold reportFill; (try dsimp only); split <;> split <;> simp

@[simp] theorem returnPayload_frame (i n r : Nat) (gs : List Segment) (c o : Nat) (xs : List Byte) (s : State) :
    (returnPayload i n r gs c o xs s).hp.fixed = s.hp.fixed ∧
    (returnPayload i n r gs c o xs s).hp.device = s.hp.device ∧
    (returnPayload i n r gs c o xs s).ec.fixed = s.ec.fixed ∧
    (returnPayload i n r gs c o xs s).pending = s.pending := by
  unfold returnPayload
  dsimp only
  have h := presentBytes_frame r xs s
  split
  · rename_i s1 h1
    rw [h1] at h
    dsimp only at h; split <;> simp [h]
  · rename_i s1 h1
    rw [h1] at h
    dsimp only at h; split <;> simp [h]

@[simp] theorem failFilling_frame (r : Nat) (s : State) :
    (failFilling r s).hp.fixed = s.hp.fixed ∧
    (failFilling r s).hp.device = s.hp.device ∧
    (failFilling r s).ec.fixed = s.ec.fixed ∧
    (failFilling r s).pending = s.pending := by unfold failFilling; (try dsimp only); split <;> simp

@[simp] theorem applyFetchEnd_frame (r : Nat) (b : Bool) (s : State) :
    (applyFetchEnd r b s).hp.fixed = s.hp.fixed ∧
    (applyFetchEnd r b s).hp.device = s.hp.device ∧
    (applyFetchEnd r b s).ec.fixed = s.ec.fixed ∧
    (applyFetchEnd r b s).pending = s.pending := by unfold applyFetchEnd; (try dsimp only); split <;> (try split) <;> simp

@[simp] theorem fetchEndEvent_frame (r : Nat) (s : State) :
    (fetchEndEvent r s).hp.fixed = s.hp.fixed ∧
    (fetchEndEvent r s).hp.device = s.hp.device ∧
    (fetchEndEvent r s).ec.fixed = s.ec.fixed ∧
    (fetchEndEvent r s).pending = s.pending := by
  unfold fetchEndEvent
  split
  · simp
  · rename_i ok rest _
    dsimp only
    split
    · have h := checkRecord_frame r (s.onBm fun b => { b with fetchEnds := rest })
      split
      · rename_i s2 h2; rw [h2] at h; dsimp only at h; simp [h]
      · rename_i s2 h2; rw [h2] at h; dsimp only at h; simp [h]
    · simp

@[simp] theorem retryHeld_frame (i n : Nat) (x : HeldCopy) (s : State) :
    (retryHeld i n x s).hp.fixed = s.hp.fixed ∧
    (retryHeld i n x s).hp.device = s.hp.device ∧
    (retryHeld i n x s).ec.fixed = s.ec.fixed ∧
    (retryHeld i n x s).pending = s.pending := by
  unfold retryHeld
  dsimp only
  have h := requestAdmission_frame n x.descriptor x.need s
  split
  · rename_i s1 h1; rw [h1] at h; dsimp only at h; simp [h]
  · rename_i s1 h1; rw [h1] at h; dsimp only at h; simp [h]
  · rename_i s1 h1; rw [h1] at h; dsimp only at h; split <;> (try split) <;> simp [h]
  · rename_i s1 h1; rw [h1] at h; dsimp only at h; simp [h]

/-! ### The admin commands -/

@[simp] theorem beginDeletion_frame (tag : BitVec 16) (n : Nat) (s : State) :
    (beginDeletion tag n s).hp.fixed = s.hp.fixed ∧
    (beginDeletion tag n s).hp.device = s.hp.device ∧
    (beginDeletion tag n s).bm = s.bm ∧
    (beginDeletion tag n s).lu = s.lu ∧
    (beginDeletion tag n s).es = s.es ∧
    (beginDeletion tag n s).ec = s.ec ∧
    (beginDeletion tag n s).pending = s.pending := by unfold beginDeletion; (try dsimp only); split <;> simp

@[simp] theorem flushHeld_frame (n : Nat) (s : State) :
    (flushHeld s n).hp.fixed = s.hp.fixed ∧
    (flushHeld s n).hp.device = s.hp.device ∧
    (flushHeld s n).bm = s.bm ∧
    (flushHeld s n).lu = s.lu ∧
    (flushHeld s n).es = s.es ∧
    (flushHeld s n).ap = s.ap ∧
    (flushHeld s n).ec = s.ec ∧
    (flushHeld s n).pending = s.pending := by unfold flushHeld; split <;> simp

@[simp] theorem flushRecord_frame (n r : Nat) (a : Option Nat) (s : State) :
    (flushRecord n (a, s) r).2.hp.fixed = s.hp.fixed ∧
    (flushRecord n (a, s) r).2.hp.device = s.hp.device ∧
    (flushRecord n (a, s) r).2.lu = s.lu ∧
    (flushRecord n (a, s) r).2.es = s.es ∧
    (flushRecord n (a, s) r).2.ec = s.ec ∧
    (flushRecord n (a, s) r).2.pending = s.pending := by unfold flushRecord; (try dsimp only); split <;> (try split) <;> (try split) <;> simp

@[simp] theorem beginEnable_frame (tag : BitVec 16) (l k : Nat) (s : State) :
    (beginEnable tag l k s).hp = s.hp ∧
    (beginEnable tag l k s).bm = s.bm ∧
    (beginEnable tag l k s).dfu = s.dfu ∧
    (beginEnable tag l k s).es = s.es ∧
    (beginEnable tag l k s).cu = s.cu ∧
    (beginEnable tag l k s).ec = s.ec ∧
    (beginEnable tag l k s).pending = s.pending := by simp [beginEnable]

@[simp] theorem enableLink_frame (tag : BitVec 16) (l k : Nat) (s : State) :
    (enableLink tag l k s).hp.fixed = s.hp.fixed ∧
    (enableLink tag l k s).hp.device = s.hp.device ∧
    (enableLink tag l k s).bm = s.bm ∧
    (enableLink tag l k s).dfu = s.dfu ∧
    (enableLink tag l k s).es = s.es ∧
    (enableLink tag l k s).cu = s.cu ∧
    (enableLink tag l k s).ec = s.ec ∧
    (enableLink tag l k s).pending = s.pending := by unfold enableLink; split <;> (try split) <;> simp

@[simp] theorem disableAwaiting_frame (tag : BitVec 16) (l : Nat) (s : State) :
    (disableAwaiting tag l s).hp.fixed = s.hp.fixed ∧
    (disableAwaiting tag l s).hp.device = s.hp.device ∧
    (disableAwaiting tag l s).bm = s.bm ∧
    (disableAwaiting tag l s).dfu = s.dfu ∧
    (disableAwaiting tag l s).es = s.es ∧
    (disableAwaiting tag l s).cu = s.cu ∧
    (disableAwaiting tag l s).ec = s.ec ∧
    (disableAwaiting tag l s).pending = s.pending := by simp [disableAwaiting]

@[simp] theorem disableActive_frame (tag : BitVec 16) (l : Nat) (s : State) :
    (disableActive tag l s).hp.fixed = s.hp.fixed ∧
    (disableActive tag l s).hp.device = s.hp.device ∧
    (disableActive tag l s).bm = s.bm ∧
    (disableActive tag l s).dfu = s.dfu ∧
    (disableActive tag l s).cu = s.cu ∧
    (disableActive tag l s).ec = s.ec ∧
    (disableActive tag l s).pending = s.pending := by unfold disableActive; split <;> simp

@[simp] theorem disableLink_frame (tag : BitVec 16) (l : Nat) (s : State) :
    (disableLink tag l s).hp.fixed = s.hp.fixed ∧
    (disableLink tag l s).hp.device = s.hp.device ∧
    (disableLink tag l s).bm = s.bm ∧
    (disableLink tag l s).dfu = s.dfu ∧
    (disableLink tag l s).cu = s.cu ∧
    (disableLink tag l s).ec = s.ec ∧
    (disableLink tag l s).pending = s.pending := by unfold disableLink; split <;> (try split) <;> simp

@[simp] theorem beginActivation_frame (tag : BitVec 16) (l : Nat) (s : State) :
    (beginActivation tag l s).hp.fixed = s.hp.fixed ∧
    (beginActivation tag l s).hp.device = s.hp.device ∧
    (beginActivation tag l s).ec.fixed = s.ec.fixed ∧
    (beginActivation tag l s).pending = s.pending := by unfold beginActivation; (try dsimp only); split <;> simp

@[simp] theorem activateCalendar_frame (tag : BitVec 16) (l : Nat) (s : State) :
    (activateCalendar tag l s).hp.fixed = s.hp.fixed ∧
    (activateCalendar tag l s).hp.device = s.hp.device ∧
    (activateCalendar tag l s).ec.fixed = s.ec.fixed ∧
    (activateCalendar tag l s).pending = s.pending := by unfold activateCalendar; split <;> (try split) <;> simp

@[simp] theorem flushHeld_foldl_frame (ns : List Nat) (s : State) :
    (ns.foldl flushHeld s).hp.fixed = s.hp.fixed ∧
    (ns.foldl flushHeld s).hp.device = s.hp.device ∧
    (ns.foldl flushHeld s).bm = s.bm ∧
    (ns.foldl flushHeld s).lu = s.lu ∧
    (ns.foldl flushHeld s).es = s.es ∧
    (ns.foldl flushHeld s).ap = s.ap ∧
    (ns.foldl flushHeld s).ec = s.ec ∧
    (ns.foldl flushHeld s).pending = s.pending := by
  induction ns generalizing s with
  | nil => simp
  | cons n ns ih => simp [ih]

@[simp] theorem flushRecord_foldl_frame (n : Nat) (rs : List Nat) (a : Option Nat) (s : State) :
    (rs.foldl (flushRecord n) (a, s)).2.hp.fixed = s.hp.fixed ∧
    (rs.foldl (flushRecord n) (a, s)).2.hp.device = s.hp.device ∧
    (rs.foldl (flushRecord n) (a, s)).2.lu = s.lu ∧
    (rs.foldl (flushRecord n) (a, s)).2.es = s.es ∧
    (rs.foldl (flushRecord n) (a, s)).2.ec = s.ec ∧
    (rs.foldl (flushRecord n) (a, s)).2.pending = s.pending := by
  induction rs generalizing s a with
  | nil => simp
  | cons r rs ih =>
    have h := flushRecord_frame n r a s
    have h' := ih (flushRecord n (a, s) r).1 (flushRecord n (a, s) r).2
    simp only [List.foldl_cons]
    simp_all

@[simp] theorem beginFlush_frame (tag : BitVec 16) (n : Nat) (s : State) :
    (beginFlush tag n s).hp.fixed = s.hp.fixed ∧
    (beginFlush tag n s).hp.device = s.hp.device ∧
    (beginFlush tag n s).ec.fixed = s.ec.fixed ∧
    (beginFlush tag n s).pending = s.pending := by
  unfold beginFlush
  dsimp only
  split <;> split <;> split <;> simp

@[simp] theorem flushFlow_frame (tag : BitVec 16) (n : Nat) (s : State) :
    (flushFlow tag n s).hp.fixed = s.hp.fixed ∧
    (flushFlow tag n s).hp.device = s.hp.device ∧
    (flushFlow tag n s).ec.fixed = s.ec.fixed ∧
    (flushFlow tag n s).pending = s.pending := by
  unfold flushFlow
  split
  · simp
  · have h := checkRecords_frame (s.flow n).queue s
    (split <;> try simp) <;> split
    all_goals
      rename_i s1 h1
      rw [h1] at h
      dsimp only at h; simp [h]

/-! ### The partner and the serializer -/

@[simp] theorem bringUp_frame (l a b c d : Nat) (s : State) :
    (bringUp l a b c d s).hp.fixed = s.hp.fixed ∧
    (bringUp l a b c d s).hp.device = s.hp.device ∧
    (bringUp l a b c d s).ec.fixed = s.ec.fixed ∧
    (bringUp l a b c d s).pending = s.pending := by simp [bringUp]

@[simp] theorem takeCredit_frame (l m k : Nat) (s : State) :
    (takeCredit l m k s).hp.fixed = s.hp.fixed ∧
    (takeCredit l m k s).hp.device = s.hp.device ∧
    (takeCredit l m k s).ec.fixed = s.ec.fixed ∧
    (takeCredit l m k s).pending = s.pending := by unfold takeCredit; split <;> simp

@[simp] theorem downInDrain_frame (l : Nat) (s : State) :
    (downInDrain l s).hp.fixed = s.hp.fixed ∧
    (downInDrain l s).hp.device = s.hp.device ∧
    (downInDrain l s).ec.fixed = s.ec.fixed ∧
    (downInDrain l s).es = s.es ∧
    (downInDrain l s).pending = s.pending := by
  have h := checkSending_frame l s
  unfold downInDrain
  split
  · rename_i s1 h1
    rw [h1] at h
    dsimp only at h; simp [h]
  · rename_i s1 h1
    rw [h1] at h
    dsimp only at h; simp [h]

/-! ### Error Control -/

@[simp] theorem takeReport_frame (r : EccReport) (s : State) :
    (takeReport r s).ec.fixed = s.ec.fixed ∧
    (takeReport r s).hp = s.hp ∧
    (takeReport r s).bm = s.bm ∧
    (takeReport r s).dfu = s.dfu ∧
    (takeReport r s).lu = s.lu ∧
    (takeReport r s).es = s.es ∧
    (takeReport r s).cu = s.cu ∧
    (takeReport r s).ap = s.ap ∧
    (takeReport r s).pending = s.pending := by simp [takeReport]

end Sys2Proof.Machine
end

