-- ==== Sys2Proof/Laws/Effects.lean ====
section
/-! SUPPORT. What the shared operations do: the last of two writes to one entry, the checks of sound memories, the ends of long commands, the taking of an admin command, a link the ES has nothing to do for, fetch ends and activations, and the end of a frame by containment or by a failure of its link. -/

namespace Sys2Proof.Machine

open Sys2Proof Host

/-! ### Two writes to one entry -/

section
variable {α : Type} {u : Nat → α}

theorem tableErase_of_keys {t : Table α} {i : Nat} (h : ∀ e ∈ t, e.1 ≠ i) : tableErase i t = t := by
  induction t with
  | nil => rfl
  | cons e t ih =>
    have h1 := h e (by simp)
    simp only [tableErase]
    rw [if_neg h1, ih fun x hx => h x (by simp [hx])]

theorem tableErase_insert {t : Table α} {i : Nat} (x : α) (h : ∀ e ∈ t, e.1 ≠ i) : tableErase i (tableInsert i x t) = t := by
  induction t with
  | nil => simp [tableInsert, tableErase]
  | cons e t ih =>
    have h1 := h e (by simp)
    have h2 : ∀ y ∈ t, y.1 ≠ i := fun y hy => h y (by simp [hy])
    simp only [tableInsert]
    split
    · simp [tableErase, h1, tableErase_of_keys h2]
    · simp [tableErase, h1, ih h2]

theorem tableErase_set [DecidableEq α] (t : Table α) (i : Nat) (x : α) : tableErase i (tableSet u t i x) = tableErase i t := by
  unfold tableSet
  split
  · exact tableErase_of_keys (tableErase_keys t i)
  · exact tableErase_insert x (tableErase_keys t i)

@[simp] theorem tableSet_set [DecidableEq α] (t : Table α) (i : Nat) (x y : α) : tableSet u (tableSet u t i x) i y = tableSet u t i y := by
  rw [tableSet, tableErase_set]; rfl

end

@[simp] theorem State.setRead_setRead (s : State) (i : Nat) (x y : Option HostRead) :
    (s.setRead i x).setRead i y = s.setRead i y := by simp [State.setRead, State.onHp]
@[simp] theorem State.setFrame_setFrame (s : State) (i : Nat) (x y : FrameRecord) :
    (s.setFrame i x).setFrame i y = s.setFrame i y := by simp [State.setFrame, State.onBm]
@[simp] theorem State.setFlow_setFlow (s : State) (i : Nat) (x y : FlowContext) :
    (s.setFlow i x).setFlow i y = s.setFlow i y := by simp [State.setFlow, State.onBm]
@[simp] theorem State.setSq_setSq (s : State) (i : Nat) (x y : SqContext) :
    (s.setSq i x).setSq i y = s.setSq i y := by simp [State.setSq, State.onDfu]
@[simp] theorem State.setSlot_setSlot (s : State) (i : Nat) (x y : FetchSlot) :
    (s.setSlot i x).setSlot i y = s.setSlot i y := by simp [State.setSlot, State.onDfu]
@[simp] theorem State.setLink_setLink (s : State) (i : Nat) (x y : LinkContext) :
    (s.setLink i x).setLink i y = s.setLink i y := by simp [State.setLink, State.onLu]
@[simp] theorem State.setSched_setSched (s : State) (i : Nat) (x y : Scheduler) :
    (s.setSched i x).setSched i y = s.setSched i y := by simp [State.setSched, State.onEs]
@[simp] theorem State.setCq_setCq (s : State) (i : Nat) (x y : CqContext) :
    (s.setCq i x).setCq i y = s.setCq i y := by simp [State.setCq, State.onCu]

/-! ### Checks of sound memories -/

@[simp] theorem strike_nil (s : State) : strike [] s = s := rfl

theorem checkRecord_clean (r : Nat) {s : State} (h : s.bm.frameEcc = []) : checkRecord r s = (true, s) := by
  simp [checkRecord, h, tableGet, eccUnlisted]

theorem checkLink_clean (c : Nat) {s : State} (h : s.bm.linkEcc = []) : checkLink c s = (true, s) := by
  simp [checkLink, h, tableGet, eccUnlisted]

theorem checkLinks_clean (cs : List Nat) {s : State} (h : s.bm.linkEcc = []) : checkLinks cs s = (true, s) := by
  induction cs with
  | nil => rfl
  | cons c cs ih => simp [checkLinks, checkLink_clean c h, ih]

theorem checkRecords_clean (cs : List Nat) {s : State} (h : s.bm.frameEcc = []) : checkRecords cs s = (true, s) := by
  induction cs with
  | nil => rfl
  | cons c cs ih => simp [checkRecords, checkRecord_clean c h, ih]

theorem checkCell_clean (c n : Nat) {s : State} (h : s.bm.cellEcc = []) : checkCell c n s = (true, s) := by
  cases s with | mk hp bm dfu lu es cu ap ec pending =>
  simp only at h
  simp only [checkCell, State.onBm, State.onEc, h]
  cases bm; cases ec; simp_all

theorem checkSending_clean (l : Nat) {s : State} (h : s.bm.frameEcc = []) : checkSending l s = (true, s) := by
  unfold checkSending
  split
  · rfl
  · simp [checkRecord_clean _ h]

theorem readHeads_clean (rs : List Nat) {s : State} (h : s.bm.frameEcc = []) : readHeads rs s = (true, s) := by
  induction rs with
  | nil => rfl
  | cons r rs ih => simp [readHeads, checkRecord_clean r h, ih]

/-! ### Checks that find an error -/

theorem checkRecord_oneBit {r : Nat} {s : State} (h : tableGet eccUnlisted s.bm.frameEcc r = .oneBit) :
    checkRecord r s =
      (true, sendReport (.correction .frameTable) (s.onBm fun b => { b with frameEcc := tableErase r b.frameEcc })) := by
  simp [checkRecord, h]

theorem checkRecord_uncorrectable {r : Nat} {s : State} (h : tableGet eccUnlisted s.bm.frameEcc r = .uncorrectable) :
    checkRecord r s = (false, sendReport (.fatal .frameTableUncorrectable) s) := by
  simp [checkRecord, h]

theorem checkLink_oneBit {c : Nat} {s : State} (h : tableGet eccUnlisted s.bm.linkEcc c = .oneBit) :
    checkLink c s =
      (true, sendReport (.correction .linkTable) (s.onBm fun b => { b with linkEcc := tableErase c b.linkEcc })) := by
  simp [checkLink, h]

theorem checkLink_uncorrectable {c : Nat} {s : State} (h : tableGet eccUnlisted s.bm.linkEcc c = .uncorrectable) :
    checkLink c s = (false, sendReport (.fatal .linkTableUncorrectable) s) := by
  simp [checkLink, h]

/-- An ACTIVE link with an idle serializer and every queue of its flows empty: a pending activation is applied, and nothing
else happens (R99). -/
theorem consider_empty {s : State} {l : Nat} (h : queuesEmpty s l = true) : consider l s =
    if s.hp.device = .running ∧ (s.link l).state = .active ∧ (s.link l).serializer = none ∧ (s.sched l).activation = true
    then applyActivation l s else s := by
  simp only [consider, considerTimes, h, if_true]
  split
  · rename_i g; simp [g]
  · rename_i g; rw [if_neg fun k => g ⟨k.1, k.2.1, k.2.2.1⟩]

/-! ### Ends of long commands -/

theorem takeOutstanding_append {op : LongOperation} {before after : List Outstanding} {e : Outstanding}
    (h : ∀ x ∈ before, x.operation ≠ op) (he : e.operation = op) :
    takeOutstanding op (before ++ e :: after) = some (e, before ++ after) := by
  induction before with
  | nil => simp [takeOutstanding, he]
  | cons x xs ih =>
    have h1 := h x (by simp)
    simp [takeOutstanding, h1, ih fun y hy => h y (by simp [hy])]

theorem takeOutstanding_none {op : LongOperation} {es : List Outstanding} (h : ∀ x ∈ es, x.operation ≠ op) :
    takeOutstanding op es = none := by
  induction es with
  | nil => rfl
  | cons x xs ih => simp [takeOutstanding, h x (by simp), ih fun y hy => h y (by simp [hy])]

/-- A long command's end where the AP owes it: its completion, and its entry gone. -/
theorem endLong_owed {s : State} {e : Outstanding} {before after : List Outstanding} (st : AdminStatus) (k : Nat)
    (h : s.owes e before after) :
    endLong e.operation st k s =
      adminComplete e.tag e.operation.kind st k (s.onAp fun b => { b with outstanding := before ++ after }) := by
  simp [endLong, h.1, takeOutstanding_append h.2 rfl]

/-- A long command's end where the AP owes none of it: nothing. -/
theorem endLong_not_owed {s : State} {op : LongOperation} (st : AdminStatus) (k : Nat)
    (h : ∀ x ∈ s.ap.outstanding, x.operation ≠ op) : endLong op st k s = s := by
  simp [endLong, takeOutstanding_none h]

/-! ### Taking an admin command -/

/-- A command that arrives: its effect on the state in which it is decided, and the AP's next read. -/
theorem takeCommand_arrives {s : State} (effect : State → State) (h : s.commandArrives) :
    takeCommand effect s = startCommandRead (effect s.atDecision) := by
  obtain ⟨h1, h2, h3⟩ := h
  simp [takeCommand, adminReadEntry, h3, freeRead, h1, h2, State.atDecision, advance]

/-! ### A link the ES has nothing to do for -/

theorem consider_not_active {s : State} {l : Nat} (h : (s.link l).state ≠ .active) : consider l s = s := by
  simp [consider, considerTimes, h]

theorem consider_busy {s : State} {l : Nat} (h : (s.link l).serializer ≠ none) : consider l s = s := by
  simp [consider, considerTimes, h]

theorem consider_not_running {s : State} {l : Nat} (h : s.hp.device ≠ .running) : consider l s = s := by
  simp [consider, considerTimes, h]

/-! ### Readings across the operations that write no datapath table -/

@[simp] theorem signalVector0_reads  (s : State) :
    (∀ k, (signalVector0  s).frame k = s.frame k) ∧
    (∀ k, (signalVector0  s).flow k = s.flow k) ∧
    (∀ k, (signalVector0  s).linkEntry k = s.linkEntry k) ∧
    (∀ k q, (signalVector0  s).cellByte k q = s.cellByte k q) ∧
    (∀ k, (signalVector0  s).sq k = s.sq k) ∧
    (∀ k, (signalVector0  s).slot k = s.slot k) ∧
    (∀ k, (signalVector0  s).link k = s.link k) ∧
    (∀ k q, (signalVector0  s).available k q = s.available k q) ∧
    (∀ k q, (signalVector0  s).announced k q = s.announced k q) ∧
    (∀ k, (signalVector0  s).sched k = s.sched k) ∧
    (∀ k, (signalVector0  s).cq k = s.cq k) :=
  ⟨fun _ => State.frame_congr _ _ _ (by simp), fun _ => State.flow_congr _ _ _ (by simp), fun _ => State.linkEntry_congr _ _ _ (by simp), fun _ _ => State.cellByte_congr _ _ _ _ (by simp), fun _ => State.sq_congr _ _ _ (by simp), fun _ => State.slot_congr _ _ _ (by simp), fun _ => State.link_congr _ _ _ (by simp), fun _ _ => State.available_congr _ _ _ _ (by simp), fun _ _ => State.announced_congr _ _ _ _ (by simp), fun _ => State.sched_congr _ _ _ (by simp), fun _ => State.cq_congr _ _ _ (by simp)⟩

@[simp] theorem raiseNotice_reads (n : Notice) (s : State) :
    (∀ k, (raiseNotice n s).frame k = s.frame k) ∧
    (∀ k, (raiseNotice n s).flow k = s.flow k) ∧
    (∀ k, (raiseNotice n s).linkEntry k = s.linkEntry k) ∧
    (∀ k q, (raiseNotice n s).cellByte k q = s.cellByte k q) ∧
    (∀ k, (raiseNotice n s).sq k = s.sq k) ∧
    (∀ k, (raiseNotice n s).slot k = s.slot k) ∧
    (∀ k, (raiseNotice n s).link k = s.link k) ∧
    (∀ k q, (raiseNotice n s).available k q = s.available k q) ∧
    (∀ k q, (raiseNotice n s).announced k q = s.announced k q) ∧
    (∀ k, (raiseNotice n s).sched k = s.sched k) ∧
    (∀ k, (raiseNotice n s).cq k = s.cq k) :=
  ⟨fun _ => State.frame_congr _ _ _ (by simp), fun _ => State.flow_congr _ _ _ (by simp), fun _ => State.linkEntry_congr _ _ _ (by simp), fun _ _ => State.cellByte_congr _ _ _ _ (by simp), fun _ => State.sq_congr _ _ _ (by simp), fun _ => State.slot_congr _ _ _ (by simp), fun _ => State.link_congr _ _ _ (by simp), fun _ _ => State.available_congr _ _ _ _ (by simp), fun _ _ => State.announced_congr _ _ _ _ (by simp), fun _ => State.sched_congr _ _ _ (by simp), fun _ => State.cq_congr _ _ _ (by simp)⟩

@[simp] theorem drainBacklog_reads  (s : State) :
    (∀ k, (drainBacklog  s).frame k = s.frame k) ∧
    (∀ k, (drainBacklog  s).flow k = s.flow k) ∧
    (∀ k, (drainBacklog  s).linkEntry k = s.linkEntry k) ∧
    (∀ k q, (drainBacklog  s).cellByte k q = s.cellByte k q) ∧
    (∀ k, (drainBacklog  s).sq k = s.sq k) ∧
    (∀ k, (drainBacklog  s).slot k = s.slot k) ∧
    (∀ k, (drainBacklog  s).link k = s.link k) ∧
    (∀ k q, (drainBacklog  s).available k q = s.available k q) ∧
    (∀ k q, (drainBacklog  s).announced k q = s.announced k q) ∧
    (∀ k, (drainBacklog  s).sched k = s.sched k) ∧
    (∀ k, (drainBacklog  s).cq k = s.cq k) :=
  ⟨fun _ => State.frame_congr _ _ _ (by simp), fun _ => State.flow_congr _ _ _ (by simp), fun _ => State.linkEntry_congr _ _ _ (by simp), fun _ _ => State.cellByte_congr _ _ _ _ (by simp), fun _ => State.sq_congr _ _ _ (by simp), fun _ => State.slot_congr _ _ _ (by simp), fun _ => State.link_congr _ _ _ (by simp), fun _ _ => State.available_congr _ _ _ _ (by simp), fun _ _ => State.announced_congr _ _ _ _ (by simp), fun _ => State.sched_congr _ _ _ (by simp), fun _ => State.cq_congr _ _ _ (by simp)⟩

@[simp] theorem sendReport_reads (r : EccReport) (s : State) :
    (∀ k, (sendReport r s).frame k = s.frame k) ∧
    (∀ k, (sendReport r s).flow k = s.flow k) ∧
    (∀ k, (sendReport r s).linkEntry k = s.linkEntry k) ∧
    (∀ k q, (sendReport r s).cellByte k q = s.cellByte k q) ∧
    (∀ k, (sendReport r s).sq k = s.sq k) ∧
    (∀ k, (sendReport r s).slot k = s.slot k) ∧
    (∀ k, (sendReport r s).link k = s.link k) ∧
    (∀ k q, (sendReport r s).available k q = s.available k q) ∧
    (∀ k q, (sendReport r s).announced k q = s.announced k q) ∧
    (∀ k, (sendReport r s).sched k = s.sched k) ∧
    (∀ k, (sendReport r s).cq k = s.cq k) :=
  ⟨fun _ => State.frame_congr _ _ _ (by simp), fun _ => State.flow_congr _ _ _ (by simp), fun _ => State.linkEntry_congr _ _ _ (by simp), fun _ _ => State.cellByte_congr _ _ _ _ (by simp), fun _ => State.sq_congr _ _ _ (by simp), fun _ => State.slot_congr _ _ _ (by simp), fun _ => State.link_congr _ _ _ (by simp), fun _ _ => State.available_congr _ _ _ _ (by simp), fun _ _ => State.announced_congr _ _ _ _ (by simp), fun _ => State.sched_congr _ _ _ (by simp), fun _ => State.cq_congr _ _ _ (by simp)⟩

@[simp] theorem adminComplete_reads (tag : BitVec 16) (kind : Nat) (st : AdminStatus) (x : Nat) (s : State) :
    (∀ k, (adminComplete tag kind st x s).frame k = s.frame k) ∧
    (∀ k, (adminComplete tag kind st x s).flow k = s.flow k) ∧
    (∀ k, (adminComplete tag kind st x s).linkEntry k = s.linkEntry k) ∧
    (∀ k q, (adminComplete tag kind st x s).cellByte k q = s.cellByte k q) ∧
    (∀ k, (adminComplete tag kind st x s).sq k = s.sq k) ∧
    (∀ k, (adminComplete tag kind st x s).slot k = s.slot k) ∧
    (∀ k, (adminComplete tag kind st x s).link k = s.link k) ∧
    (∀ k q, (adminComplete tag kind st x s).available k q = s.available k q) ∧
    (∀ k q, (adminComplete tag kind st x s).announced k q = s.announced k q) ∧
    (∀ k, (adminComplete tag kind st x s).sched k = s.sched k) ∧
    (∀ k, (adminComplete tag kind st x s).cq k = s.cq k) :=
  ⟨fun _ => State.frame_congr _ _ _ (by simp), fun _ => State.flow_congr _ _ _ (by simp), fun _ => State.linkEntry_congr _ _ _ (by simp), fun _ _ => State.cellByte_congr _ _ _ _ (by simp), fun _ => State.sq_congr _ _ _ (by simp), fun _ => State.slot_congr _ _ _ (by simp), fun _ => State.link_congr _ _ _ (by simp), fun _ _ => State.available_congr _ _ _ _ (by simp), fun _ _ => State.announced_congr _ _ _ _ (by simp), fun _ => State.sched_congr _ _ _ (by simp), fun _ => State.cq_congr _ _ _ (by simp)⟩

@[simp] theorem endLong_reads (o : LongOperation) (st : AdminStatus) (x : Nat) (s : State) :
    (∀ k, (endLong o st x s).frame k = s.frame k) ∧
    (∀ k, (endLong o st x s).flow k = s.flow k) ∧
    (∀ k, (endLong o st x s).linkEntry k = s.linkEntry k) ∧
    (∀ k q, (endLong o st x s).cellByte k q = s.cellByte k q) ∧
    (∀ k, (endLong o st x s).sq k = s.sq k) ∧
    (∀ k, (endLong o st x s).slot k = s.slot k) ∧
    (∀ k, (endLong o st x s).link k = s.link k) ∧
    (∀ k q, (endLong o st x s).available k q = s.available k q) ∧
    (∀ k q, (endLong o st x s).announced k q = s.announced k q) ∧
    (∀ k, (endLong o st x s).sched k = s.sched k) ∧
    (∀ k, (endLong o st x s).cq k = s.cq k) :=
  ⟨fun _ => State.frame_congr _ _ _ (by simp), fun _ => State.flow_congr _ _ _ (by simp), fun _ => State.linkEntry_congr _ _ _ (by simp), fun _ _ => State.cellByte_congr _ _ _ _ (by simp), fun _ => State.sq_congr _ _ _ (by simp), fun _ => State.slot_congr _ _ _ (by simp), fun _ => State.link_congr _ _ _ (by simp), fun _ _ => State.available_congr _ _ _ _ (by simp), fun _ _ => State.announced_congr _ _ _ _ (by simp), fun _ => State.sched_congr _ _ _ (by simp), fun _ => State.cq_congr _ _ _ (by simp)⟩

@[simp] theorem appendOutstanding_reads (o : LongOperation) (tag : BitVec 16) (s : State) :
    (∀ k, (appendOutstanding o tag s).frame k = s.frame k) ∧
    (∀ k, (appendOutstanding o tag s).flow k = s.flow k) ∧
    (∀ k, (appendOutstanding o tag s).linkEntry k = s.linkEntry k) ∧
    (∀ k q, (appendOutstanding o tag s).cellByte k q = s.cellByte k q) ∧
    (∀ k, (appendOutstanding o tag s).sq k = s.sq k) ∧
    (∀ k, (appendOutstanding o tag s).slot k = s.slot k) ∧
    (∀ k, (appendOutstanding o tag s).link k = s.link k) ∧
    (∀ k q, (appendOutstanding o tag s).available k q = s.available k q) ∧
    (∀ k q, (appendOutstanding o tag s).announced k q = s.announced k q) ∧
    (∀ k, (appendOutstanding o tag s).sched k = s.sched k) ∧
    (∀ k, (appendOutstanding o tag s).cq k = s.cq k) :=
  ⟨fun _ => State.frame_congr _ _ _ (by simp), fun _ => State.flow_congr _ _ _ (by simp), fun _ => State.linkEntry_congr _ _ _ (by simp), fun _ _ => State.cellByte_congr _ _ _ _ (by simp), fun _ => State.sq_congr _ _ _ (by simp), fun _ => State.slot_congr _ _ _ (by simp), fun _ => State.link_congr _ _ _ (by simp), fun _ _ => State.available_congr _ _ _ _ (by simp), fun _ _ => State.announced_congr _ _ _ _ (by simp), fun _ => State.sched_congr _ _ _ (by simp), fun _ => State.cq_congr _ _ _ (by simp)⟩

@[simp] theorem startCommandRead_reads  (s : State) :
    (∀ k, (startCommandRead  s).frame k = s.frame k) ∧
    (∀ k, (startCommandRead  s).flow k = s.flow k) ∧
    (∀ k, (startCommandRead  s).linkEntry k = s.linkEntry k) ∧
    (∀ k q, (startCommandRead  s).cellByte k q = s.cellByte k q) ∧
    (∀ k, (startCommandRead  s).sq k = s.sq k) ∧
    (∀ k, (startCommandRead  s).slot k = s.slot k) ∧
    (∀ k, (startCommandRead  s).link k = s.link k) ∧
    (∀ k q, (startCommandRead  s).available k q = s.available k q) ∧
    (∀ k q, (startCommandRead  s).announced k q = s.announced k q) ∧
    (∀ k, (startCommandRead  s).sched k = s.sched k) ∧
    (∀ k, (startCommandRead  s).cq k = s.cq k) :=
  ⟨fun _ => State.frame_congr _ _ _ (by simp), fun _ => State.flow_congr _ _ _ (by simp), fun _ => State.linkEntry_congr _ _ _ (by simp), fun _ _ => State.cellByte_congr _ _ _ _ (by simp), fun _ => State.sq_congr _ _ _ (by simp), fun _ => State.slot_congr _ _ _ (by simp), fun _ => State.link_congr _ _ _ (by simp), fun _ _ => State.available_congr _ _ _ _ (by simp), fun _ _ => State.announced_congr _ _ _ _ (by simp), fun _ => State.sched_congr _ _ _ (by simp), fun _ => State.cq_congr _ _ _ (by simp)⟩


/-! ### Notices and admin completions beside writes of the datapath -/

theorem raiseNotice_onBm (n : Notice) (s : State) (f : BmBlock → BmBlock) :
    raiseNotice n (s.onBm f) = (raiseNotice n s).onBm f := by
  cases s with | mk hp bm dfu lu es cu ap ec pending =>
  unfold raiseNotice
  simp only [State.onBm]
  cases hp.device <;> simp [postponeNotice, State.onEc, writeNotice, signalVector0, State.emit, State.onHp, nrRoom, apply_ite]
    <;> (split <;> (try split) <;> rfl)

theorem adminComplete_onBm (tag : BitVec 16) (kind : Nat) (st : AdminStatus) (x : Nat) (s : State)
    (f : BmBlock → BmBlock) :
    adminComplete tag kind st x (s.onBm f) = (adminComplete tag kind st x s).onBm f := by
  cases h : s.hp.latch <;> simp [adminComplete, signalVector0, State.onBm, State.emit, State.onHp, State.onAp, h]

theorem raiseNotice_onDfu (n : Notice) (s : State) (f : DfuBlock → DfuBlock) :
    raiseNotice n (s.onDfu f) = (raiseNotice n s).onDfu f := by
  cases s with | mk hp bm dfu lu es cu ap ec pending =>
  unfold raiseNotice
  simp only [State.onDfu]
  cases hp.device <;> simp [postponeNotice, State.onEc, writeNotice, signalVector0, State.emit, State.onHp, nrRoom, apply_ite]
    <;> (split <;> (try split) <;> rfl)

theorem adminComplete_onDfu (tag : BitVec 16) (kind : Nat) (st : AdminStatus) (x : Nat) (s : State)
    (f : DfuBlock → DfuBlock) :
    adminComplete tag kind st x (s.onDfu f) = (adminComplete tag kind st x s).onDfu f := by
  cases h : s.hp.latch <;> simp [adminComplete, signalVector0, State.onDfu, State.emit, State.onHp, State.onAp, h]

theorem raiseNotice_onLu (n : Notice) (s : State) (f : LuBlock → LuBlock) :
    raiseNotice n (s.onLu f) = (raiseNotice n s).onLu f := by
  cases s with | mk hp bm dfu lu es cu ap ec pending =>
  unfold raiseNotice
  simp only [State.onLu]
  cases hp.device <;> simp [postponeNotice, State.onEc, writeNotice, signalVector0, State.emit, State.onHp, nrRoom, apply_ite]
    <;> (split <;> (try split) <;> rfl)

theorem adminComplete_onLu (tag : BitVec 16) (kind : Nat) (st : AdminStatus) (x : Nat) (s : State)
    (f : LuBlock → LuBlock) :
    adminComplete tag kind st x (s.onLu f) = (adminComplete tag kind st x s).onLu f := by
  cases h : s.hp.latch <;> simp [adminComplete, signalVector0, State.onLu, State.emit, State.onHp, State.onAp, h]

theorem raiseNotice_onEs (n : Notice) (s : State) (f : EsBlock → EsBlock) :
    raiseNotice n (s.onEs f) = (raiseNotice n s).onEs f := by
  cases s with | mk hp bm dfu lu es cu ap ec pending =>
  unfold raiseNotice
  simp only [State.onEs]
  cases hp.device <;> simp [postponeNotice, State.onEc, writeNotice, signalVector0, State.emit, State.onHp, nrRoom, apply_ite]
    <;> (split <;> (try split) <;> rfl)

theorem adminComplete_onEs (tag : BitVec 16) (kind : Nat) (st : AdminStatus) (x : Nat) (s : State)
    (f : EsBlock → EsBlock) :
    adminComplete tag kind st x (s.onEs f) = (adminComplete tag kind st x s).onEs f := by
  cases h : s.hp.latch <;> simp [adminComplete, signalVector0, State.onEs, State.emit, State.onHp, State.onAp, h]

theorem raiseNotice_onCu (n : Notice) (s : State) (f : CuBlock → CuBlock) :
    raiseNotice n (s.onCu f) = (raiseNotice n s).onCu f := by
  cases s with | mk hp bm dfu lu es cu ap ec pending =>
  unfold raiseNotice
  simp only [State.onCu]
  cases hp.device <;> simp [postponeNotice, State.onEc, writeNotice, signalVector0, State.emit, State.onHp, nrRoom, apply_ite]
    <;> (split <;> (try split) <;> rfl)

theorem adminComplete_onCu (tag : BitVec 16) (kind : Nat) (st : AdminStatus) (x : Nat) (s : State)
    (f : CuBlock → CuBlock) :
    adminComplete tag kind st x (s.onCu f) = (adminComplete tag kind st x s).onCu f := by
  cases h : s.hp.latch <;> simp [adminComplete, signalVector0, State.onCu, State.emit, State.onHp, State.onAp, h]

/-! ### Fetch ends and activations -/

/-- The first fetch end of a record, wherever it stands among those on their way. -/
theorem takeFetchEnd_append {r : Nat} {ok : Bool} {before after : List (Nat × Bool)} (h : ∀ x ∈ before, x.1 ≠ r) :
    takeFetchEnd r (before ++ (r, ok) :: after) = some (ok, before ++ after) := by
  induction before with
  | nil => simp [takeFetchEnd]
  | cons x xs ih =>
    have h1 := h x (by simp)
    simp [takeFetchEnd, h1, ih fun y hy => h y (by simp [hy])]

theorem takeFetchEnd_none {r : Nat} {es : List (Nat × Bool)} (h : ∀ x ∈ es, x.1 ≠ r) : takeFetchEnd r es = none := by
  induction es with
  | nil => rfl
  | cons x xs ih => simp [takeFetchEnd, h x (by simp), ih fun y hy => h y (by simp [hy])]

/-- The apply of a pending activation whose command is owed (R97). -/
theorem applyActivation_owed {s : State} {l : Nat} {tag : BitVec 16} {before after : List Outstanding}
    (h : s.owes { operation := .activateCalendar l, tag := tag } before after) :
    applyActivation l s = adminComplete tag 0x31 .ok 0 ((s.setSched l
      { s.sched l with active := (s.sched l).shadow, pointer := 0, activation := false }).onAp fun b =>
        { b with outstanding := before ++ after }) :=
  endLong_owed (s := s.setSched l _) .ok 0 h

/-! ### End markers and failures of links -/

/-- What `markAbort` can do: nothing, or one ABORT marker on an ACTIVE or DRAINING link whose frame no failure has cut
short. -/
theorem markAbort_cases (l : Nat) (s : State) : markAbort l s = s ∨
    (s.carries l ∧ (∃ z, (s.link l).serializer = some z ∧ z.lost = false) ∧
      markAbort l s = s.send l (.endMarker false)) := by
  unfold markAbort
  split
  · rename_i h
    right
    cases hz : (s.link l).serializer with
    | none => simp [mayMark, hz] at h
    | some z => simp_all [mayMark, State.carries]
  · exact .inl rfl

/-- What `loseFrame` does to a link whose serializer is IDLE, stopped, or at work on a frame. -/
theorem loseFrame_idle {l : Nat} {s : State} (h : (s.link l).serializer = none) : loseFrame l s = s := by
  simp [loseFrame, h]
theorem loseFrame_stopped {l : Nat} {s : State} {z : Serializer} (h : (s.link l).serializer = some z)
    (hz : z.stopped = true) : loseFrame l s = setSerializer l (some { z with lost := true }) s := by
  simp [loseFrame, h, hz]
theorem loseFrame_sending {l : Nat} {s : State} {z : Serializer} (h : (s.link l).serializer = some z)
    (hz : z.stopped = false) :
    loseFrame l s = takeLinkEnd z.record (some .linkLost) (setSerializer l none s) := by
  simp [loseFrame, h, hz]

end Sys2Proof.Machine
end

