-- ==== Sys2Proof/Laws/PerInstr.lean ====
section
/-! SUPPORT. One lemma per command: a command has at most one form in which it arrives as bytes. -/

namespace Sys2Proof.Laws.CommandKind

open Sys2Proof

/-- A command that arrives as 64 bytes of the admin submission ring is no message of the partner (sections 11.4, 11.8). -/
def Statement (i : Instr) : Prop := (encodeAdminCommand i).isSome = true → encodePartnerMessage i = none

theorem powerOn : Statement (.powerOn) := fun _ => rfl
theorem hostLinkReset : Statement (.hostLinkReset) := fun _ => rfl
theorem functionReset (word : Word32) : Statement (.functionReset word) := fun _ => rfl
theorem run (word : Word32) : Statement (.run word) := fun _ => rfl
theorem containmentModeWrite (word : Word32) : Statement (.containmentModeWrite word) := fun _ => rfl
theorem systemRingRegisterWrite (reg : SystemRingRegister) (value : Word32) : Statement (.systemRingRegisterWrite reg value) := fun _ => rfl
theorem registerWrite (offset width : Nat) (value : Word32) : Statement (.registerWrite offset width value) := fun _ => rfl
theorem sqProducerIndexWrite (ring : Fin 32) (value : Word32) : Statement (.sqProducerIndexWrite ring value) := fun _ => rfl
theorem asrProducerIndexWrite (value : Word32) : Statement (.asrProducerIndexWrite value) := fun _ => rfl
theorem cqConsumerIndexWrite (ring : Fin 16) (value : Word32) : Statement (.cqConsumerIndexWrite ring value) := fun _ => rfl
theorem acrConsumerIndexWrite (value : Word32) : Statement (.acrConsumerIndexWrite value) := fun _ => rfl
theorem nrConsumerIndexWrite (value : Word32) : Statement (.nrConsumerIndexWrite value) := fun _ => rfl
theorem fetchSlotGrant : Statement (.fetchSlotGrant) := fun _ => rfl
theorem retry (upsets : List Upset) : Statement (.retry upsets) := fun _ => rfl
theorem descriptorReadReturn (slot : Fin 8) (data : BitVec 512) (upsets : List Upset) : Statement (.descriptorReadReturn slot data upsets) := fun _ => rfl
theorem descriptorReadError (slot : Fin 8) : Statement (.descriptorReadError slot) := fun _ => rfl
theorem payloadReadReturn (slot : Fin 8) (data : List Byte) (upsets : List Upset) : Statement (.payloadReadReturn slot data upsets) := fun _ => rfl
theorem payloadReadError (slot : Fin 8) : Statement (.payloadReadError slot) := fun _ => rfl
theorem hostReadTimeout (entry : Fin 9) : Statement (.hostReadTimeout entry) := fun _ => rfl
theorem strayReadResponse (entry : Fin 9) : Statement (.strayReadResponse entry) := fun _ => rfl
theorem fetchEnd (record : Fin 2048) (upsets : List Upset) : Statement (.fetchEnd record upsets) := fun _ => rfl
theorem commandReadStart : Statement (.commandReadStart) := fun _ => rfl
theorem commandReadError : Statement (.commandReadError) := fun _ => rfl
theorem createSq (tag : BitVec 16) (ring cq : BitVec 8) (size limit : BitVec 16) (base : Address) : Statement (.createSq tag ring cq size limit base) := fun _ => rfl
theorem deleteSq (tag : BitVec 16) (ring : BitVec 8) : Statement (.deleteSq tag ring) := fun _ => rfl
theorem createCq (tag : BitVec 16) (ring vector threshold : BitVec 8) (size holdoff : BitVec 16) (base : Address) : Statement (.createCq tag ring vector threshold size holdoff base) := fun _ => rfl
theorem deleteCq (tag : BitVec 16) (ring : BitVec 8) : Statement (.deleteCq tag ring) := fun _ => rfl
theorem configureFlow (tag : BitVec 16) (flow : BitVec 16) (link cls : BitVec 8) (cap : BitVec 16) (policy threshold : BitVec 8) : Statement (.configureFlow tag flow link cls cap policy threshold) := fun _ => rfl
theorem enableFlow (tag : BitVec 16) (flow : BitVec 16) : Statement (.enableFlow tag flow) := fun _ => rfl
theorem disableFlow (tag : BitVec 16) (flow : BitVec 16) : Statement (.disableFlow tag flow) := fun _ => rfl
theorem flushFlow (tag : BitVec 16) (flow : BitVec 16) : Statement (.flushFlow tag flow) := fun _ => rfl
theorem queryFlow (tag : BitVec 16) (flow : BitVec 16) : Statement (.queryFlow tag flow) := fun _ => rfl
theorem enableLink (tag : BitVec 16) (link : BitVec 8) (timeout : BitVec 16) : Statement (.enableLink tag link timeout) := fun _ => rfl
theorem disableLink (tag : BitVec 16) (link : BitVec 8) : Statement (.disableLink tag link) := fun _ => rfl
theorem setClassMap (tag : BitVec 16) (link mask : BitVec 8) (lanes : BitVec 64) : Statement (.setClassMap tag link mask lanes) := fun _ => rfl
theorem queryLink (tag : BitVec 16) (link : BitVec 8) : Statement (.queryLink tag link) := fun _ => rfl
theorem writeCalendar (tag : BitVec 16) (link start count blank : BitVec 8) (entries : BitVec 448) : Statement (.writeCalendar tag link start count blank entries) := fun _ => rfl
theorem activateCalendar (tag : BitVec 16) (link : BitVec 8) : Statement (.activateCalendar tag link) := fun _ => rfl
theorem setErrorPolicy (tag : BitVec 16) (threshold : Word32) : Statement (.setErrorPolicy tag threshold) := fun _ => rfl
theorem queryPool (tag : BitVec 16) : Statement (.queryPool tag) := fun _ => rfl
theorem unknownCommand (tag : BitVec 16) (kind : BitVec 8) : Statement (.unknownCommand tag kind) := fun _ => rfl
theorem ready (link : Fin 4) (credit0 credit1 credit2 credit3 : BitVec 16) : Statement (.ready link credit0 credit1 credit2 credit3) := fun h => by simp [encodeAdminCommand] at h
theorem credit (link : Fin 4) (lane : BitVec 8) (count : BitVec 16) : Statement (.credit link lane count) := fun h => by simp [encodeAdminCommand] at h
theorem down (link : Fin 4) (field : BitVec 8) : Statement (.down link field) := fun h => by simp [encodeAdminCommand] at h
theorem malformedMessage (link : Fin 4) : Statement (.malformedMessage link) := fun _ => rfl
theorem offerTimerExpiry (link : Fin 4) : Statement (.offerTimerExpiry link) := fun _ => rfl
theorem linkUpTimerExpiry (link : Fin 4) : Statement (.linkUpTimerExpiry link) := fun _ => rfl
theorem cellSent (link : Fin 4) (upsets : List Upset) : Statement (.cellSent link upsets) := fun _ => rfl
theorem underrunTimerExpiry (link : Fin 4) : Statement (.underrunTimerExpiry link) := fun _ => rfl
theorem abortOrder (link : Fin 4) (record : Fin 2048) : Statement (.abortOrder link record) := fun _ => rfl
theorem holdoffTimerExpiry (ring : Fin 16) : Statement (.holdoffTimerExpiry ring) := fun _ => rfl
theorem correctionReport (memory : ProtectedMemory) : Statement (.correctionReport memory) := fun _ => rfl
theorem cellDataErrorReport (link : Fin 4) (cell : Fin 8192) : Statement (.cellDataErrorReport link cell) := fun _ => rfl
theorem fatalReport (cause : FatalCause) : Statement (.fatalReport cause) := fun _ => rfl
theorem selfResetCompletion : Statement (.selfResetCompletion) := fun _ => rfl
theorem functionResetCompletion : Statement (.functionResetCompletion) := fun _ => rfl
theorem flushEnd (flow : Fin 128) : Statement (.flushEnd flow) := fun _ => rfl
theorem deletionEnd (ring : Fin 32) : Statement (.deletionEnd ring) := fun _ => rfl
theorem drainEnd (link : Fin 4) : Statement (.drainEnd link) := fun _ => rfl
theorem activationApply (link : Fin 4) : Statement (.activationApply link) := fun _ => rfl

end Sys2Proof.Laws.CommandKind
end

