-- ==== Sys2Proof/Tests/Slice0.lean ====
section
/-! SUPPORT. Tests on small states, each about one command, with values worked out by hand from the rules named, and a witness for the hypotheses of every statement. -/

namespace Sys2Proof.Tests

-- The tests are checked one after another: many at once wait for each other and take a thread and its stack each.
set_option Elab.async false

open Sys2Proof Sys2Proof.Machine Host

/-! ### States -/

/-- The state after a command; the state itself where it answers none. -/
def after (i : Instr) (s : State) : State :=
  match exec i s with
  | .next t => t
  | .fault _ | .refused _ => s

/-- A host read in flight. -/
def someRead (length : Nat) : HostRead := { address := 0x700, length := length, timer := 10000, cutOff := false }

/-- RUNNING with rings of 16 slots, an admin command's read in flight from slot 15, completion ring 1 at its last slot, and
submission ring 2 bound to it at slot 15. -/
def live : State :=
  { State.reset with
    hp := { HpBlock.reset with
      device := .running, run := true, asrSize := 16, acrSize := 16, nrSize := 16, asrBase := 0x1000, acrBase := 0x2000,
      nrBase := 0x3000, reads := [(8, some (someRead 64))] },
    ap := { ApBlock.reset with state := .reading, asrHead := 15, asrProducer := 2, acrTail := 15, acrConsumer := 14 },
    cu := { rings := [(1, { CqContext.reset with
      state := .active, base := 0x5000, size := 16, vector := 3, threshold := 2, holdoff := 7, tail := 15, consumer := 14,
      reserved := 4 })] },
    dfu := { DfuBlock.reset with rings := [(2, { SqContext.reset with
      state := .active, base := 0x6000, size := 16, cq := 1, limit := 4, inFlight := 2, head := 15, producer := 3 })] } }

/-- The same with the AP idle and no read in flight. -/
def idleAp : State := (live.setRead 8 none).onAp fun b => { b with state := .idle }

/-- A state in another device state. -/
def inState (d : DeviceState) (s : State) : State := s.onHp fun b => { b with device := d }

/-- A command's operation on the outstanding list, between two others. -/
def owing (o : LongOperation) (s : State) : State :=
  s.onAp fun b => { b with outstanding :=
    [{ operation := .flushFlow 99, tag := 1 }, { operation := o, tag := 42 }, { operation := .deleteSq 99, tag := 2 }] }

/-- A frame of 600 bytes in cells 9, 10 and 11, of flow 6 and ring 2, with one cell filled. -/
def someFrame (state : FrameState) : FrameRecord :=
  { FrameRecord.reset with
    state := state, ring := 2, tag := 77, flow := 6, length := 600, cellCount := 3, firstCell := 9, lastCell := 11,
    filled := 1, fillCell := 10, fillOffset := 20 }

/-- An ENABLED flow on link 0, class 2, holding three cells, with the queue given. -/
def someFlow (queue : List Nat) : FlowContext :=
  { FlowContext.reset with state := .enabled, cls := 2, cap := 8, held := 3, threshold := 1, queue := queue }

/-- A link with 5 of 8 credits on lane 1. -/
def someLink (state : LinkState) : LinkContext :=
  { LinkContext.reset with state := state, announced := [(1, 8)], available := [(1, 5)] }

/-- A serializer sending record 4, its first of three cells. -/
def someSerializer : Serializer :=
  { state := .transmitting, record := 4, lane := 1, cellCount := 3, sent := 0, filled := 1, nextCell := 9, timer := none,
    stopped := false, lost := false }

/-- Link 0 in a state, its serializer sending record 4 of flow 6. -/
def sending (state : LinkState) : State :=
  (((owing (.disableLink 0) live).setLink 0 { someLink state with
    serializer := some someSerializer, outstanding := if state = .draining then some .disable else none }).setFrame 4
      (someFrame .sending)).setFlow 6 (someFlow [4])

/-- Link 0 ACTIVE and idle, record 4 at the head of flow 6 with one cell of three filled. -/
def waiting : State :=
  (((live.setLink 0 (someLink .active)).setFrame 4 (someFrame .filling)).setFlow 6 (someFlow [4])).setSched 0
    { Scheduler.reset with classMap := [(2, 1)], active := [(10, some 6)], pointer := 5 }

/-- Fetch slot 3 fetching the payload of record 4, 5 bytes at offset 30 of a segment of 400. -/
def fetching (state : FrameState) : State :=
  (((live.setFrame 4 (someFrame state)).setFlow 6 { someFlow [4] with link := 2 }).setSlot 3
    (.payload 2 4 [{ address := 1000, length := 400 }] 0 30)).setRead 3 (some (someRead 5))

/-- Fetch slot 3 reading the descriptor in slot 14 of ring 2. -/
def reading : State := (live.setSlot 3 (.descRead 2 14)).setRead 3 (some (someRead 64))

/-- A descriptor of 600 bytes for flow 6 in two segments (section 11.2). -/
def someDescriptor : BitVec 512 :=
  layout 512 [(0, 1, 1), (1, 1, 2), (2, 2, 6), (4, 4, 77), (8, 4, 600), (16, 8, 1000), (24, 4, 500), (28, 8, 9000),
    (36, 4, 100)]

/-- Ring 2 with a held descriptor for flow 6, marked retry-ready. -/
def holding : State :=
  ((live.setSq 2 { live.sq 2 with
    held := some { descriptor := decodeDescriptor someDescriptor, slot := 14, need := 3 } }).onDfu fun b =>
      { b with held := [{ ring := 7, ready := false, stopped := false }, { ring := 2, ready := true, stopped := false }] })

/-! ### Well-formed and ill-formed terms -/

theorem test_wellFormed_accepts :
    (Instr.functionReset 2).wellFormed = true ∧ (Instr.run 1).wellFormed = true ∧
    (Instr.containmentModeWrite 0x10).wellFormed = true ∧ (Instr.registerWrite 0x004 4 1).wellFormed = true ∧
    (Instr.registerWrite 0x000 2 1).wellFormed = true ∧
    (Instr.payloadReadReturn 0 (List.replicate 512 0) []).wellFormed = true ∧
    (Instr.unknownCommand 0 0x15).wellFormed = true ∧ (Instr.ready 0 1023 0 0 1023).wellFormed = true ∧
    (Instr.credit 0 3 1023).wellFormed = true := by decide +kernel
theorem test_wellFormed_refuses_functionReset : (Instr.functionReset 1).wellFormed = false := by decide
theorem test_wellFormed_refuses_run : (Instr.run 3).wellFormed = false ∧ (Instr.run 0x10).wellFormed = false := by decide
theorem test_wellFormed_refuses_containmentMode :
    (Instr.containmentModeWrite 0x11).wellFormed = false ∧ (Instr.containmentModeWrite 2).wellFormed = false := by decide
theorem test_wellFormed_refuses_registerWrite :
    (Instr.registerWrite 0x000 4 0).wellFormed = false ∧ (Instr.registerWrite 0x1C8 4 0).wellFormed = false := by decide
theorem test_wellFormed_refuses_payload :
    (Instr.payloadReadReturn 0 [] []).wellFormed = false ∧
    (Instr.payloadReadReturn 0 (List.replicate 513 0) []).wellFormed = false := by decide +kernel
theorem test_wellFormed_refuses_unknownCommand : (Instr.unknownCommand 0 0x14).wellFormed = false := by decide
theorem test_wellFormed_refuses_ready : (Instr.ready 0 0 0 1024 0).wellFormed = false := by decide
theorem test_wellFormed_refuses_credit :
    (Instr.credit 0 4 1).wellFormed = false ∧ (Instr.credit 0 0 0).wellFormed = false ∧
    (Instr.credit 0 0 1024).wellFormed = false := by decide

/-! ### The bytes of commands, written out from sections 11.4 and 11.8 -/

theorem test_createSq_bytes : decodeAdminCommand 0x1234564000000040010005070000000012340001 = .createSq 0x1234 7 5 0x0100 0x0040 0x12345640 := by decide +kernel
theorem test_deleteSq_bytes : decodeAdminCommand 0x1f00000000abcd0002 = .deleteSq 0xABCD 31 := by decide +kernel
theorem test_createCq_bytes : decodeAdminCommand 0xfedcba98765432100fff100000ff100f0000000000020003 = .createCq 2 15 16 255 4096 4095 0xFEDCBA9876543210 := by decide +kernel
theorem test_deleteCq_bytes : decodeAdminCommand 0x90000000000030004 = .deleteCq 3 9 := by decide +kernel
theorem test_configureFlow_bytes : decodeAdminCommand 0x8012000070301230000000000040010 = .configureFlow 4 0x0123 3 7 8192 1 8 := by decide +kernel
theorem test_enableFlow_bytes : decodeAdminCommand 0xc80000000000050011 = .enableFlow 5 200 := by decide +kernel
theorem test_disableFlow_bytes : decodeAdminCommand 0x7f0000000000050012 = .disableFlow 5 127 := by decide +kernel
theorem test_flushFlow_bytes : decodeAdminCommand 0x1020000000000050013 = .flushFlow 5 0x0102 := by decide +kernel
theorem test_queryFlow_bytes : decodeAdminCommand 0x10000000000050014 = .queryFlow 5 1 := by decide +kernel
theorem test_enableLink_bytes : decodeAdminCommand 0x3e800020000000000060020 = .enableLink 6 2 1000 := by decide +kernel
theorem test_disableLink_bytes : decodeAdminCommand 0x30000000000060021 = .disableLink 6 3 := by decide +kernel
theorem test_setClassMap_bytes : decodeAdminCommand 0x30201000302010080010000000000060022 = .setClassMap 6 1 0x80 0x0302010003020100 := by decide +kernel
theorem test_queryLink_bytes : decodeAdminCommand 0x20000000000060023 = .queryLink 6 2 := by decide +kernel
theorem test_writeCalendar_bytes : decodeAdminCommand 0x1fc0f83007f043c00070230 = .writeCalendar 7 2 60 4 127 0x01FC0F83 := by decide +kernel
theorem test_activateCalendar_bytes : decodeAdminCommand 0x10000000000070031 = .activateCalendar 7 1 := by decide +kernel
theorem test_setErrorPolicy_bytes : decodeAdminCommand 0xffff0000000000080040 = .setErrorPolicy 8 65535 := by decide +kernel
theorem test_queryPool_bytes : decodeAdminCommand 0x90041 = .queryPool 9 := by decide +kernel
theorem test_unknownCommand_bytes : decodeAdminCommand 0x4d00000000000a0050 = .unknownCommand 10 0x50 := by decide +kernel
theorem test_ready_bytes :
    decodePartnerMessage 1 [0x08, 0x01, 0x00, 0xFF, 0x03, 0x00, 0x01, 0x02, 0x00] = .ready 1 1 1023 256 2 := by decide
theorem test_credit_bytes : decodePartnerMessage 2 [0x09, 0x03, 0x00, 0x02] = .credit 2 3 512 := by decide
theorem test_down_bytes : decodePartnerMessage 3 [0x05, 0xEE] = .down 3 0xEE := by decide
theorem test_malformed_bytes :
    decodePartnerMessage 0 [0x01, 0x00] = .malformedMessage 0 ∧ decodePartnerMessage 0 [0x09, 0x04, 0x01, 0x00] = .malformedMessage 0 ∧
    decodePartnerMessage 0 [0x08, 0x00, 0x04, 0, 0, 0, 0, 0, 0] = .malformedMessage 0 ∧
    decodePartnerMessage 0 [0x08, 1, 0] = .malformedMessage 0 := by decide
theorem test_no_table_word : decodeTableWord 0 0 = none := rfl

/-! ### The host port and the index ports -/

-- R171.
theorem test_powerOn : (after .powerOn (sending .active)).hp.device = .stopped ∧ (after .powerOn (sending .active)).hp.asrSize = 0 := by decide
-- R178: the response of every outstanding read is cut off; R174: RESETTING while one is outstanding.
theorem test_hostLinkReset :
    (after .hostLinkReset live).hp.device = .resetting ∧
    (after .hostLinkReset live).read 8 = some { someRead 64 with cutOff := true } := by decide
-- R172: FUNCTION_RESET reads 1 in RESETTING.
theorem test_functionReset : (after (.functionReset 2) live).readRegister 0 = 2 := by decide
-- R173: the size 17 is no power of two.
theorem test_run_bad_size :
    (after (.run 1) { State.reset with hp := { HpBlock.reset with asrSize := 16, acrSize := 16, nrSize := 17 } }).hp.configError = true := by
  decide
theorem test_run :
    (after (.run 0x21) { State.reset with hp := { HpBlock.reset with asrSize := 16, acrSize := 256, nrSize := 32 } }).readRegister 0 = 0x21 := by
  decide
theorem test_containmentModeWrite : (after (.containmentModeWrite 0x20) live).hp.mode = .selfReset := by decide
-- R185: the mode value 3 leaves the stored mode.
theorem test_containmentModeWrite_three : (after (.containmentModeWrite 0x30) live).hp.mode = .halt := by decide
-- R175: the low 5 bits of an ACR base are dropped.
theorem test_systemRingRegisterWrite :
    (after (.systemRingRegisterWrite .acrBaseLow 0xFFFFFFFF) State.reset).readRegister 0x020 = 0xFFFFFFE0 ∧
    (after (.systemRingRegisterWrite .acrBaseHigh 0xABCD1234) State.reset).readRegister 0x024 = 0xABCD1234 := by decide
theorem test_systemRingRegisterWrite_running : (after (.systemRingRegisterWrite .nrSize 32) live).hp.nrSize = 16 := by decide
-- R175: STATUS is not writable.
theorem test_registerWrite : (after (.registerWrite 0x004 4 0xFFFFFFFF) live).readRegister 0x004 = 1 := by decide
theorem test_sqProducerIndexWrite : ((after (.sqProducerIndexWrite 2 15) live).sq 2).producer = 15 := by decide
-- R41: 16 is not less than the size; the notice goes to the ring.
theorem test_sqProducerIndexWrite_error :
    ((after (.sqProducerIndexWrite 2 16) live).sq 2).producer = 3 ∧ (after (.sqProducerIndexWrite 2 16) live).ec.nrTail = 1 := by decide
-- R136: a command read of slot 15 starts, at 0x1000 + 64 × 15.
theorem test_asrProducerIndexWrite : (after (.asrProducerIndexWrite 1) idleAp).hp.out = [.readRequest 8 0x13C0 64] := by decide
-- R125: 14 and 15 lie in the range from consumer to tail, 0 does not.
theorem test_cqConsumerIndexWrite : ((after (.cqConsumerIndexWrite 1 15) live).cq 1).consumer = 15 := by decide
theorem test_cqConsumerIndexWrite_error : ((after (.cqConsumerIndexWrite 1 0) live).cq 1).consumer = 14 := by decide
theorem test_acrConsumerIndexWrite : (after (.acrConsumerIndexWrite 15) live).ap.acrConsumer = 15 := by decide
-- R149: the latch is cleared even where the value is refused, and the notice then sends a message.
theorem test_nrConsumerIndexWrite :
    (after (.nrConsumerIndexWrite 9) (live.onHp fun b => { b with latch := true })).hp.out.getLast? = some (.interrupt 0) := by decide

/-! ### Descriptor and payload fetch -/

-- R48: 0x6000 + 64 × 15.
theorem test_fetchSlotGrant : (after .fetchSlotGrant live).hp.out = [.readRequest 0 0x63C0 64] ∧ ((after .fetchSlotGrant live).sq 2).inFlight = 3 := by decide
-- R57: flow 6 is UNCONFIGURED here, so the retry ends FLOW_NOT_READY, status 8.
theorem test_retry :
    ((after (.retry []) holding).sq 2).held = none ∧ (after (.retry []) holding).dfu.held.length = 1 := by decide
-- R1, R13, R59: 600 bytes take three cells from cell 0; the first read is of the first 500 bytes.
theorem test_retry_admitted :
    (after (.retry []) (holding.setFlow 6 { someFlow [] with link := 2 })).hp.out = [.readRequest 0 1000 500] ∧
    ((after (.retry []) (holding.setFlow 6 { someFlow [] with link := 2 })).frame 0).lastCell = 2 := by decide +kernel
-- R52: an UNCONFIGURED flow fails BAD_FLOW; tag 77, SQ head 0 after the advance, ring 2, status 7, subcode 2, phase 1.
theorem test_descriptorReadReturn :
    (after (.descriptorReadReturn 3 someDescriptor []) reading).hp.out.head? =
      some (.write16 0x50F0 0x01000000_00000002_07020000_0000004D) := by decide +kernel
theorem test_descriptorReadError : ((after (.descriptorReadError 3) reading).sq 2).state = .error := by decide
-- R14: five bytes into cell 10 from offset 20; R59: the next read of the segment is 400 − 35 bytes at 1035.
theorem test_payloadReadReturn :
    (after (.payloadReadReturn 3 [1, 2, 3, 4, 5] []) (fetching .filling)).cellByte 10 24 = 5 ∧
    ((after (.payloadReadReturn 3 [1, 2, 3, 4, 5] []) (fetching .filling)).frame 4).fillOffset = 25 ∧
    (after (.payloadReadReturn 3 [1, 2, 3, 4, 5] []) (fetching .sending)).hp.out = [.readRequest 3 1035 365] := by decide
theorem test_payloadReadError : (after (.payloadReadError 3) (fetching .filling)).bm.fetchEnds = [(4, false)] := by decide
theorem test_hostReadTimeout : (after (.hostReadTimeout 3) (fetching .filling)).slot 3 = .idle := by decide
theorem test_strayReadResponse : (after (.strayReadResponse 5) live).hp.out = [] := by decide
-- R16: FILLING with an error retires the frame; its record returns to the free list.
theorem test_fetchEnd :
    (after (.fetchEnd 4 []) ((fetching .filling).onBm fun b => { b with fetchEnds := [(4, false)], freeRecords := [7] })).bm.freeRecords = [7, 4] := by
  decide
-- R111: an error in SENDING sends the LU an abort order.
theorem test_fetchEnd_sending :
    (after (.fetchEnd 4 []) ((fetching .sending).onBm fun b => { b with fetchEnds := [(4, false)] })).lu.aborts = [(2, 4)] := by decide

/-! ### The admin ring -/

theorem test_commandReadStart : (after .commandReadStart idleAp).ap.state = .reading := by decide
theorem test_commandReadError : (after .commandReadError live).ap.state = .error := by decide
theorem test_createSq : ((after (.createSq 5 31 1 16 2048 0x40) live).sq 31).state = .active := by decide
-- R62, R145: a ring of 17 slots gives BAD_PARAMETER: tag 5, kind 1, status 2, ASR head 0, phase 1, at slot 15 of the ACR.
theorem test_createSq_bad :
    (after (.createSq 5 31 1 17 2048 0x40) live).hp.out.head? =
      some (.write32 0x21E0 0x01000000_00000000_00000000_00000000_00000000_00000000_00000000_02010005) := by decide
theorem test_deleteSq : ((after (.deleteSq 5 2) live).sq 2).state = .deleting := by decide
theorem test_createCq : ((after (.createCq 5 15 16 255 4096 4095 0x10) live).cq 15).holdoff = 4095 := by decide
-- R131: completion ring 1 is bound to ring 2.
theorem test_deleteCq : ((after (.deleteCq 5 1) live).cq 1).state = .active := by decide
theorem test_configureFlow : ((after (.configureFlow 5 127 3 7 8192 1 8) live).flow 127).policy = .discard := by decide
theorem test_enableFlow : ((after (.enableFlow 5 6) (live.setFlow 6 { someFlow [] with state := .disabled })).flow 6).state = .enabled := by decide
theorem test_disableFlow : ((after (.disableFlow 5 6) (live.setFlow 6 (someFlow []))).flow 6).state = .disabled := by decide
-- R32: state ENABLED 2, one queued frame, three cells held.
theorem test_queryFlow : flowResult (someFlow [4]) = 0x0003_0001_0002 := by decide
theorem test_queryFlow_answers : (after (.queryFlow 5 6) live).ap.acrTail = 0 := by decide
theorem test_enableLink : (after (.enableLink 5 0 1000) live).lu.out = [(0, .offer 0)] := by decide
theorem test_disableLink : ((after (.disableLink 5 0) (sending .active)).link 0).state = .draining := by decide
theorem test_setClassMap : laneOf (after (.setClassMap 5 0 0x80 0x0302010003020100) live) 0 0 = 0 ∧
    tableGet laneUnlisted ((after (.setClassMap 5 0 0x80 0x0302010003020100) live).sched 0).classMap 7 = 3 := by decide
-- R83: ACTIVE 2, 5 available and 8 announced on lane 1.
theorem test_queryLink : linkResult (live.setLink 0 (someLink .active)) 0 = 0x0008_0000_0000_0000_0005_0000_0002 := by decide
-- Section 11.4: entries 3, 31 and 127, the blank code 127, from slot 61.
theorem test_writeCalendar :
    (List.range 4).map (tableGet calendarUnlisted ((after (.writeCalendar 5 0 60 3 127 0x1FCF83) live).sched 0).shadow <| 60 + ·) =
      [some 3, some 31, none, none] := by decide +kernel
theorem test_activateCalendar : ((after (.activateCalendar 5 0) (live.setSched 0 { Scheduler.reset with shadow := [(3, some 1)] })).sched 0).active = [(3, some 1)] := by decide
theorem test_setErrorPolicy : (after (.setErrorPolicy 5 65535) live).ec.threshold = 65535 := by decide
-- R147: 8192 free cells, 2048 free records.
theorem test_queryPool : poolResult State.reset = 0x0800_2000 := by decide +kernel
-- R137: kind 0x50 with status 7.
theorem test_unknownCommand :
    (after (.unknownCommand 5 0x50) live).hp.out.head? =
      some (.write32 0x21E0 0x01000000_00000000_00000000_00000000_00000000_00000000_00000000_07500005) := by decide

/-! ### Links and transmission -/

theorem test_ready : ((after (.ready 0 1 2 3 4) (live.setLink 0 { someLink .awaitPartner with outstanding := some .enable })).link 0).state = .active ∧
    (after (.ready 0 1 2 3 4) (live.setLink 0 { someLink .awaitPartner with outstanding := some .enable })).available 0 3 = 4 := by decide
theorem test_credit : (after (.credit 0 1 3) (sending .active)).available 0 1 = 8 := by decide
-- R72: 5 + 4 passes the announced 8.
theorem test_credit_overflow : ((after (.credit 0 1 4) (sending .active)).link 0).cause = some .creditOverflow := by decide
theorem test_down : ((after (.down 0 9) (sending .active)).link 0).cause = some .partnerDown ∧ (after (.down 0 9) (sending .active)).lu.out = [] := by decide
theorem test_malformedMessage : (after (.malformedMessage 0) (sending .active)).lu.out = [(0, .down 0)] := by decide
theorem test_offerTimerExpiry : (after (.offerTimerExpiry 1) (live.setLink 1 { someLink .awaitPartner with offerTimer := some 1 })).lu.out = [(1, .offer 1)] := by decide
theorem test_linkUpTimerExpiry : ((after (.linkUpTimerExpiry 1) (live.setLink 1 { someLink .awaitPartner with linkUpTimer := some 9 })).link 1).state = .disabled := by decide
-- R110: the credit of the three unsent cells comes back, up to 8.
theorem test_underrunTimerExpiry :
    (after (.underrunTimerExpiry 0) ((sending .active).setLink 0 { someLink .active with
      serializer := some { someSerializer with state := .starved, timer := some 20 } })).available 0 1 = 8 := by decide
theorem test_abortOrder :
    ((after (.abortOrder 0 4) ((sending .active).onLu fun b => { b with aborts := [(0, 4)] })).frame 4).cause = some .fetchAborted := by decide
-- R88, R92, R104: the head of flow 6 has reached its threshold; lane 1 has 5 credits for 3 cells.
theorem test_consider_grants :
    ((consider 0 waiting).frame 4).cutThrough = true ∧ (consider 0 waiting).available 0 1 = 2 ∧
    ((consider 0 waiting).sched 0).pointer = 11 := by decide

/-! ### Completion rings, errors and ends -/

theorem test_holdoffTimerExpiry : (after (.holdoffTimerExpiry 1) (live.setCq 1 { live.cq 1 with timer := some 7, pending := 1 })).hp.out = [.interrupt 3] := by decide
theorem test_correctionReport : (after (.correctionReport .linkTable) live).ec.linkTableCount = 1 := by decide
-- R156: at the threshold the count returns to 0.
theorem test_correctionReport_limit :
    (after (.correctionReport .cellData) (live.onEc fun b => { b with cellDataCount := 255 })).ec.cellDataCount = 0 := by decide
-- R157, section 11.6: kind 4, count 1, link 2, cell 0x1FFF, phase 1.
theorem test_cellDataErrorReport :
    (after (.cellDataErrorReport 2 8191) live).hp.out.head? = some (.write16 0x3000 0x01000000_00000000_1FFF0002_00010004) := by decide
theorem test_fatalReport : (after (.fatalReport .linkTableUncorrectable) live).readRegister 0x004 = 0x012 := by decide
theorem test_fatalReport_second : (after (.fatalReport .frameTableUncorrectable) (inState .failed live)).ec.multiple = true := by decide
theorem test_selfResetCompletion : (after .selfResetCompletion ((inState .selfResetting live).setRead 8 none)).hp.device = .running := by decide
theorem test_functionResetCompletion : (after .functionResetCompletion ((inState .resetting live).setRead 8 none)).hp.device = .stopped := by decide
theorem test_flushEnd : ((after (.flushEnd 6) (live.setFlow 6 { someFlow [] with state := .flushing, held := 0 })).flow 6).state = .disabled := by decide
theorem test_deletionEnd : (after (.deletionEnd 2) (live.setSq 2 { live.sq 2 with state := .deleting, inFlight := 0 })).sq 2 = SqContext.reset := by decide
theorem test_drainEnd : ((after (.drainEnd 0) (live.setLink 0 (someLink .draining))).link 0).state = .disabled := by decide
theorem test_activationApply : ((after (.activationApply 0) (live.setSched 0 { Scheduler.reset with pointer := 9, activation := true })).sched 0).pointer = 0 := by decide
theorem test_step_idles : step State.reset = .next State.reset := rfl
theorem test_reset_memory : Memory.wf State.reset.bm.cells = true := by decide

/-! ### Witnesses: states and operands that meet the hypotheses of each statement -/

/-- The part before RUN, with the smallest and the largest ring sizes. -/
def configured : State := { State.reset with hp := { HpBlock.reset with asrSize := 16, acrSize := 256, nrSize := 16 } }

theorem witness_StepRunsFrontCommand : State.reset.pending = [] := rfl
theorem witness_ControlWriteFields :
    (inState .resetting live).hp.device = .resetting ∧ (inState .selfResetting live).hp.device = .selfResetting ∧
    live.hp.device = .running ∧ (inState .failed live).hp.device = .failed ∧ State.reset.hp.device = .stopped ∧
    (0x00 : Word32).getLsbD 1 = false ∧ (0x00 : Word32).getLsbD 0 = false ∧
    (0x00 : Word32).toNat / 16 % 4 = ContainmentMode.halt.code ∧
    (0x10 : Word32).toNat / 16 % 4 = ContainmentMode.haltLinksDown.code ∧
    (0x20 : Word32).toNat / 16 % 4 = ContainmentMode.selfReset.code ∧ (0x30 : Word32).toNat / 16 % 4 = 3 := by decide
theorem witness_RunStartsDevice :
    configured.hp.device = .stopped ∧ (0x21 : Word32).getLsbD 1 = false ∧ (0x21 : Word32).getLsbD 0 = true ∧
    (0x21 : Word32).toNat / 16 % 4 = ContainmentMode.selfReset.code ∧
    configured.hp.asrSize.toNat ∈ [16, 32, 64, 128, 256] ∧ configured.hp.acrSize.toNat ∈ [16, 32, 64, 128, 256] ∧
    configured.hp.nrSize.toNat ∈ [16, 32, 64, 128, 256] ∧ configured.ec.backlog = [] ∧
    configured.ap.asrProducer = configured.ap.asrHead ∧
    ¬ State.reset.hp.asrSize.toNat ∈ [16, 32, 64, 128, 256] ∧
    ((0x31 : Word32).getLsbD 1 = false ∧ (0x31 : Word32).getLsbD 0 = true ∧ (0x31 : Word32).toNat / 16 % 4 = 3) := by decide
theorem witness_RegistersWrittenAndRead :
    State.reset.hp.device = .stopped ∧ live.hp.device ≠ .stopped ∧ (2 ≠ 4 ∧ 8 ≠ 4) ∧
    ((0x004 : Nat) ≠ 0x000 ∧ 0x004 ∉ [0x010, 0x014, 0x018, 0x020, 0x024, 0x028, 0x030, 0x034, 0x038] ∧
      ∀ n < 51, 0x004 ≠ 0x100 + 4 * n) ∧
    ((0x1CC : Nat) ∉ [0x010, 0x014, 0x018, 0x020, 0x024, 0x028, 0x030, 0x034, 0x038] ∧ ∀ n < 51, 0x1CC ≠ 0x100 + 4 * n) ∧
    (live.sq 31).state = .absent ∧ (live.sq 2).state ≠ .absent ∧ (live.cq 15).state = .absent ∧
    (live.cq 1).state ≠ .absent := by
  decide
theorem witness_FunctionResetEntry :
    (inState .resetting live).hp.device = .resetting ∧ live.hp.device ≠ .resetting ∧ (2 : Word32).getLsbD 1 = true ∧ (∃ i < 9, live.read i ≠ none) ∧
    (∀ i < 9, idleAp.read i = none) ∧ (inState .failed live).hp.device = .failed ∧
    ((sending .active).link 0).state ≠ .disabled := by decide
theorem witness_SqProducerIndexStored :
    live.hp.device = .running ∧ (live.sq 2).state ≠ .absent ∧ (15 : Word32).toNat < (live.sq 2).size ∧
    (live.sq 2).size ≤ (16 : Word32).toNat ∧ (live.sq 3).state = .absent ∧ State.reset.hp.device = .stopped := by decide
theorem witness_CqConsumerIndexStored :
    live.hp.device = .running ∧ (live.cq 1).state = .active ∧ (live.cq 1).consumer < (live.cq 1).size ∧
    (live.cq 1).tail < (live.cq 1).size ∧
    (∃ k ≤ ((live.cq 1).tail + (live.cq 1).size - (live.cq 1).consumer) % (live.cq 1).size,
      (15 : Word32).toNat = ((live.cq 1).consumer + k) % (live.cq 1).size) ∧
    (¬ ∃ k ≤ ((live.cq 1).tail + (live.cq 1).size - (live.cq 1).consumer) % (live.cq 1).size,
      (13 : Word32).toNat = ((live.cq 1).consumer + k) % (live.cq 1).size) ∧
    (live.cq 1).size ≤ (16 : Word32).toNat ∧ (live.cq 0).state = .absent := by decide
theorem witness_IndexWritesTakenOrDropped :
    live.hp.device = .running ∧ (inState .selfResetting live).hp.device = .selfResetting ∧
    (15 : Word32).toNat < live.hp.asrSize.toNat ∧ live.hp.asrSize.toNat ≤ (16 : Word32).toNat ∧
    ((15 : Word32).toNat + live.hp.acrSize.toNat - live.ap.acrConsumer) % live.hp.acrSize.toNat
      ≤ (live.ap.acrTail + live.hp.acrSize.toNat - live.ap.acrConsumer) % live.hp.acrSize.toNat ∧
    ¬ ((13 : Word32).toNat + live.hp.acrSize.toNat - live.ap.acrConsumer) % live.hp.acrSize.toNat
      ≤ (live.ap.acrTail + live.hp.acrSize.toNat - live.ap.acrConsumer) % live.hp.acrSize.toNat := by decide
theorem witness_NrConsumerIndexTaken :
    (inState .failed live).hp.device = .failed ∧ (0 : Word32).toNat < live.hp.nrSize.toNat ∧ live.ec.backlog = [] ∧
    ((0 : Word32).toNat + live.hp.nrSize.toNat - live.ec.nrConsumer) % live.hp.nrSize.toNat
      ≤ (live.ec.nrTail + live.hp.nrSize.toNat - live.ec.nrConsumer) % live.hp.nrSize.toNat ∧
    ¬ ((1 : Word32).toNat + live.hp.nrSize.toNat - live.ec.nrConsumer) % live.hp.nrSize.toNat
      ≤ (live.ec.nrTail + live.hp.nrSize.toNat - live.ec.nrConsumer) % live.hp.nrSize.toNat ∧
    live.hp.nrSize.toNat ≤ (16 : Word32).toNat := by decide
theorem witness_IndexWritesTakenOrDropped_dropped :
    (inState .failed live).hp.device = .failed ∧ (inState .resetting live).hp.device = .resetting ∧
    (inState .stopped live).hp.device = .stopped := by decide
/-- A notice ring without room: the tail fifteen slots past the consumer index. -/
def noticeRingFull : State := live.onEc fun b => { b with nrTail := 15 }
/-- A backlog of one kind. -/
def backlogged : State := live.onEc fun b => { b with backlog := [{ notice := .ringError 2 0, count := 65535 }] }
theorem witness_NoticesPlacedAndDrained :
    (inState .resetting live).hp.device = .resetting ∧ (inState .stopped live).hp.device = .stopped ∧
    live.hp.device = .running ∧ live.ec.backlog = [] ∧
    (live.ec.nrTail + live.hp.nrSize.toNat - live.ec.nrConsumer) % live.hp.nrSize.toNat < live.hp.nrSize.toNat - 1 ∧
    ¬ (noticeRingFull.ec.nrTail + 16 - noticeRingFull.ec.nrConsumer) % 16 < 15 ∧ backlogged.ec.backlog ≠ [] := by decide
theorem witness_BacklogMergesByKind :
    (backlogged.ec.backlog.map fun e => e.notice.kind).Nodup ∧
    (∃ e ∈ backlogged.ec.backlog, e.notice.kind = (Notice.ringError 3 1).kind) ∧
    (∀ e ∈ backlogged.ec.backlog, e.notice.kind ≠ (Notice.fatalError none).kind) ∧
    ∀ e ∈ backlogged.ec.backlog, 1 ≤ e.count ∧ e.count ≤ 65535 := by decide
theorem witness_NoticesPlacedAndDrained_drain :
    backlogged.ec.nrConsumer < backlogged.hp.nrSize.toNat ∧ backlogged.ec.nrTail < backlogged.hp.nrSize.toNat ∧
    noticeRingFull.ec.nrTail < noticeRingFull.hp.nrSize.toNat := by decide
theorem witness_WrittenRecordLayouts :
    (4095 < 4096 ∧ 31 < 32 ∧ 64 ≤ 64) ∧ (0x41 < 256 ∧ 255 < 256 ∧ 2 ^ 160 - 1 < 2 ^ 160) ∧
    (50 ≤ 50 ∧ 3 < 4 ∧ 8191 < 8192 ∧ 32 ≤ 32 ∧ 65535 ≤ 65535) ∧
    (3 < 4 ∧ 7 < 8 ∧ 127 < 128 ∧ 1 ≤ 16384 ∧ 16384 ≤ 16384 ∧ 64 ≤ 64) := by decide
-- Section 11.8: a header of lane 3, class 7, flow 127, 64 cells, 16384 bytes; an ABORT marker.
theorem test_message_bytes :
    (LinkMessage.header 3 7 127 16384 64).bytes = [0x02, 0x03, 0x07, 0x7F, 0x40, 0x00, 0x40] ∧
    (LinkMessage.endMarker false).bytes = [0x04, 0x01] := by decide
theorem witness_AdminCompletionsAndCommandReads :
    (idleAp.hp.device = .running ∧ idleAp.ap.state = .idle ∧
      0 < (idleAp.ap.asrProducer + idleAp.hp.asrSize.toNat - idleAp.ap.asrHead) % idleAp.hp.asrSize.toNat ∧
      1 ≤ idleAp.hp.acrSize.toNat - 1 - (idleAp.ap.acrTail + idleAp.hp.acrSize.toNat - idleAp.ap.acrConsumer)
        % idleAp.hp.acrSize.toNat - idleAp.ap.outstanding.length) ∧
    live.ap.state ≠ .idle ∧ live.hp.device = .running ∧ live.ap.state = .reading ∧ awaitsResponse live 8 = true ∧
    (live.read 8).isSome = true := by decide
/-- The descriptor read of `reading`, the last one outstanding. -/
def lastRead : State := reading.setRead 8 none
theorem witness_ReadOutcomesDiscarded :
    live.read 5 = none ∧ idleAp.read 8 = none ∧ (encodeAdminCommand (.queryPool 1)).isSome = true ∧
    (inState .failed reading).slot 3 = .descRead 2 14 ∧ awaitsResponse (inState .selfResetting reading) 3 = true ∧
    ((inState .resetting (fetching .sending)).slot 3 = .payload 2 4 [{ address := 1000, length := 400 }] 0 30 ∧
      (fetching .sending).read 3 = some (someRead 5) ∧ (someRead 5).cutOff = false ∧
      ([1, 2, 3, 4, 5] : List Byte).length = (someRead 5).length) ∧
    (inState .failed live).ap.state = .reading ∧ awaitsResponse (inState .selfResetting live) 8 = true ∧
    (∃ j < 9, ((reading.setRead 3 none).setSlot 3 .idle).read j ≠ none) ∧
    (∀ j < 9, ((lastRead.setRead 3 none).setSlot 3 .idle).read j = none) ∧
    (∀ j < 9, (live.setRead 8 none).read j = none) := by decide
-- R161: the last read's end completes the self-reset in its event.
theorem test_descriptorReadError_selfReset :
    (after (.descriptorReadError 3) (inState .selfResetting lastRead)).hp.device = .running ∧
    (after (.descriptorReadError 3) (inState .selfResetting reading)).hp.device = .selfResetting := by decide
theorem witness_CompletionsWrittenAndCoalesced :
    (live.cq (live.sq 2).cq).pending + 1 < (live.cq (live.sq 2).cq).threshold ∧
    ((live.setCq 1 { live.cq 1 with pending := 1 }).cq 1).threshold ≤
      ((live.setCq 1 { live.cq 1 with pending := 1 }).cq 1).pending + 1 := by decide
theorem witness_CompletionsWrittenAndCoalesced_holdoff :
    live.hp.device = .running ∧ ((live.setCq 1 { live.cq 1 with timer := some 7 }).cq 1).timer.isSome = true ∧
    (live.cq 1).timer = none := by decide
theorem witness_FetchSlotGrantedOrRetried :
    live.hp.device = .running ∧ (∀ e ∈ live.dfu.held, e.ready = false) ∧ live.slot 0 = .idle ∧
    live.claims ((live.dfu.lastRing + 1 + 2) % 32) ∧ (∀ j < 2, ¬ live.claims ((live.dfu.lastRing + 1 + j) % 32)) ∧
    ∀ n < 32, ¬ State.reset.claims n := by
  unfold State.claims; decide +kernel
/-- `holding` with its flow able to take the frame, its link DISABLED. -/
def holdingRoom : State := holding.setFlow 6 { someFlow [] with link := 2 }
theorem witness_FetchSlotGrantedOrRetried_retry :
    holding.hp.device = .running ∧ holding.slot 0 = .idle ∧
    holding.dfu.held = [{ ring := 7, ready := false, stopped := false }] ++
      { ring := 2, ready := true, stopped := false } :: [] ∧
    (holding.sq 2).held = some { descriptor := decodeDescriptor someDescriptor, slot := 14, need := 3 } ∧
    (holding.flow 6).state ≠ .enabled ∧ (holdingRoom.flow 6).state = .enabled ∧ ¬ holdingRoom.noRoom 6 3 ∧
    holdingRoom.eccClean ∧ (holdingRoom.link (holdingRoom.flow 6).link).state ≠ .active ∧
    (holding.setFlow 6 { someFlow [] with cap := 2 }).noRoom 6 3 ∧
    ((holding.setFlow 6 { someFlow [] with cap := 2 }).flow 6).cap < 3 ∧
    (holding.setFlow 6 { someFlow [] with cap := 5 }).noRoom 6 3 ∧
    3 ≤ ((holding.setFlow 6 { someFlow [] with cap := 5 }).flow 6).cap ∧
    ((holding.setFlow 6 { someFlow [] with cap := 5 }).flow 6).policy = .hold ∧
    ((holding.setFlow 6 { someFlow [] with cap := 5, policy := .discard }).flow 6).policy = .discard := by
  unfold State.noRoom State.eccClean; decide +kernel
/-- `live` with the held entry of ring 7 marked yes, its retry without an answer. -/
def unanswered : State :=
  live.onDfu fun b => { b with held := [{ ring := 7, ready := true, stopped := true }] }
theorem witness_FetchSlotGrantedOrRetried_unanswered :
    unanswered.hp.device = .running ∧ (∀ e ∈ unanswered.dfu.held, e.ready = false ∨ e.stopped = true) ∧
    unanswered.slot 0 = .idle ∧ unanswered.claims 2 ∧
    (∃ e ∈ holding.dfu.held, e.ready = true ∧ e.stopped = false) := by
  unfold State.claims; decide
-- The model's choice (log entry 33): the new read is granted past the entry marked yes.
theorem test_fetchSlotGrant_unanswered :
    (after .fetchSlotGrant unanswered).slot 0 = .descRead 2 15 ∧ (after (.retry []) unanswered).dfu = unanswered.dfu := by decide
/-- Descriptors that fail checks 1 to 5 in turn: kind 2; flow 128; length 0; no segment; all in order, cap 2. -/
theorem witness_DescriptorNotAdmitted :
    reading.hp.device = .running ∧ reading.slot 3 = .descRead 2 14 ∧ awaitsResponse reading 3 = true ∧
    (reading.sq 2).state = .active ∧ (decodeDescriptor 2).kind ≠ 1 ∧ (decodeDescriptor 0x800001).kind = 1 ∧
    127 < (decodeDescriptor 0x800001).flow ∧ (reading.flow 6).state = .unconfigured ∧
    (decodeDescriptor 0x060001).flow ≤ 127 ∧ ((reading.setFlow 6 (someFlow [])).flow 6).state ≠ .unconfigured ∧
    (decodeDescriptor 0x060001).length = 0 ∧ (decodeDescriptor 0x4001_00000000_00060001).length = 16385 ∧
    (decodeDescriptor 0x0001_00000000_00060001).length = 1 ∧ (decodeDescriptor 0x0001_00000000_00060001).segmentCount = 0 ∧
    (reading.setFlow 6 (someFlow [])).accepts (decodeDescriptor someDescriptor) ∧
    ((reading.setFlow 6 { someFlow [] with cap := 2 }).flow 6).cap < ((decodeDescriptor someDescriptor).length + 255) / 256 ∧
    (reading.setFlow 6 { someFlow [] with state := .disabled }).accepts (decodeDescriptor someDescriptor) ∧
    ((reading.setFlow 6 { someFlow [] with state := .disabled }).flow 6).state ≠ .enabled ∧
    (reading.setFlow 6 { someFlow [] with cap := 5 }).accepts (decodeDescriptor someDescriptor) ∧
    (reading.setFlow 6 { someFlow [] with cap := 5 }).noRoom 6 3 := by
  unfold State.accepts State.noRoom; decide +kernel
/-- `reading` with flow 6 able to take the frame, its link DISABLED. -/
def readingRoom : State := reading.setFlow 6 { someFlow [] with link := 2 }
theorem witness_DescriptorAdmitted :
    readingRoom.hp.device = .running ∧ readingRoom.slot 3 = .descRead 2 14 ∧ awaitsResponse readingRoom 3 = true ∧
    (readingRoom.sq 2).state = .active ∧ readingRoom.eccClean ∧ readingRoom.bm.freeRecords = 0 :: (List.range 2048).tail ∧
    readingRoom.accepts (decodeDescriptor someDescriptor) ∧ (readingRoom.flow 6).state = .enabled ∧
    (readingRoom.flow 6).held + 3 ≤ (readingRoom.flow 6).cap ∧ 3 ≤ readingRoom.bm.freeCount ∧
    (readingRoom.link (readingRoom.flow 6).link).state ≠ .active ∧
    (decodeDescriptor someDescriptor).segments.take (decodeDescriptor someDescriptor).segmentCount =
      [{ address := 1000, length := 500 }, { address := 9000, length := 100 }] ∧
    [0, 1, 2].length = ((decodeDescriptor someDescriptor).length + 255) / 256 ∧
    readingRoom.bm.freeHead = [0, 1, 2].head? ∧
    ∀ j < 2, readingRoom.linkEntry ([0, 1, 2].getD j 0) = [0, 1, 2][j + 1]? := by
  unfold State.accepts State.eccClean; decide +kernel
/-- `reading` on a DELETING ring whose read is its last descriptor, the DELETE_SQ owed. -/
def lastDescriptor : State :=
  (owing (.deleteSq 2) reading).setSq 2 { live.sq 2 with state := .deleting, inFlight := 1, reading := true }
theorem witness_DescriptorReadDroppedOrFailed :
    reading.hp.device = .running ∧ reading.slot 3 = .descRead 2 14 ∧ awaitsResponse reading 3 = true ∧
    (reading.sq 2).state = .active ∧ ((reading.setSq 2 { live.sq 2 with state := .deleting }).sq 2).state = .deleting ∧
    (live.sq 2).inFlight ≠ 1 ∧ (live.sq 2).inFlight ≠ 0 ∧ lastDescriptor.slot 3 = .descRead 2 14 ∧
    awaitsResponse lastDescriptor 3 = true ∧ (lastDescriptor.sq 2).state = .deleting ∧ (lastDescriptor.sq 2).inFlight ≤ 1 ∧
    lastDescriptor.ap.outstanding =
      [{ operation := .flushFlow 99, tag := 1 }] ++ { operation := .deleteSq 2, tag := 42 } ::
        [{ operation := .deleteSq 99, tag := 2 }] := by decide
/-- Fetch slot 3 reading `n` bytes of a frame of 600 bytes in cells 9, 10 and 11, the fill at offset 250 of cell 9. -/
def filling (state : FrameState) (n : Nat) : State :=
  (((fetching state).setFrame 4 { someFrame state with filled := 0, fillCell := 9, fillOffset := 250 }).setSlot 3
    (.payload 2 4 [{ address := 1000, length := 350 }] 0 0)).setRead 3 (some (someRead n))
/-- The same frame SENDING on link 2, which waits for its first cell. -/
def starved : State :=
  (filling .sending 10).setLink 2 { someLink .active with
    serializer := some { someSerializer with state := .starved, filled := 0, timer := some 20 } }
theorem witness_PayloadBytesFillCells :
    (filling .filling 5).hp.device = .running ∧ (filling .filling 5).eccClean ∧
    (filling .filling 5).slot 3 = .payload 2 4 [{ address := 1000, length := 350 }] 0 0 ∧
    (filling .filling 350).read 3 = some (someRead 350) ∧
    [{ address := 1000, length := 350 : Segment }][0]? = some { address := 1000, length := 350 } ∧
    ((filling .filling 5).frame 4).state = .filling ∧ (starved.frame 4).state = .sending ∧
    ((filling .filling 5).frame 4).cellCount = (((filling .filling 5).frame 4).length + 255) / 256 ∧
    ((filling .filling 5).frame 4).filled < 3 ∧ ((filling .filling 5).frame 4).fillOffset < 256 ∧
    (256 * 0 + (250 + 5) < 600 ∧ 256 * 0 + (250 + 10) < 600 ∧ 256 * 0 + (250 + 350) = 600) ∧
    ([9, 10, 11] : List Nat).Nodup ∧ [9, 10, 11].head? = some ((filling .filling 5).frame 4).fillCell ∧
    (∀ m < 2, (filling .filling 5).linkEntry ([9, 10, 11].getD m 0) = [9, 10, 11][m + 1]?) ∧
    ((filling .filling 5).flow 6).queue.head? = some 4 ∧ ((filling .filling 5).link 2).serializer = none ∧
    ((filling .filling 5).link 2).state ≠ .active ∧
    (((filling .filling 5).setLink 2 (someLink .active)).link 2).state = .active ∧
    (starved.link 2).serializer = some { someSerializer with state := .starved, filled := 0, timer := some 20 } := by
  unfold State.eccClean; decide
-- A stopped serializer, and one on another record, take no fill report.
theorem witness_PayloadBytesFillCells_elsewhere :
    let z := { someSerializer with state := .starved, filled := 0, timer := some 20 }
    let stopped := starved.setLink 2 { starved.link 2 with serializer := some { z with stopped := true } }
    let other := starved.setLink 2 { starved.link 2 with serializer := some { z with record := 5 } }
    (stopped.frame 4).state = .sending ∧ (stopped.flow 6).queue.head? = some 4 ∧
    (stopped.link 2).serializer = some { z with stopped := true } ∧
    (other.link 2).serializer = some { z with record := 5 } ∧ 250 + 10 = 256 * (0 + 1) + 4 ∧
    ((after (.payloadReadReturn 3 (List.replicate 10 7) []) stopped).link 2).serializer =
      some { z with stopped := true } := by decide
-- R14, R107: byte 6 of the read is the first of cell 10; the LU has its cell, and begins it.
theorem test_payloadReadReturn_two_cells :
    (after (.payloadReadReturn 3 (List.replicate 10 7) []) starved).cellByte 10 3 = 7 ∧
    ((after (.payloadReadReturn 3 (List.replicate 10 7) []) starved).frame 4).fillCell = 10 ∧
    ((after (.payloadReadReturn 3 (List.replicate 10 7) []) starved).link 2).serializer =
      some { someSerializer with filled := 1 } := by decide
theorem witness_PayloadReadEnds :
    (fetching .closing).hp.device = .running ∧ (fetching .closing).eccClean ∧
    (fetching .closing).slot 3 = .payload 2 4 [{ address := 1000, length := 400 }] 0 30 ∧
    (fetching .closing).read 3 = some (someRead 5) ∧ ((fetching .closing).frame 4).state = .closing ∧
    ((fetching .discarding).frame 4).state = .discarding ∧ 30 + 5 < 400 ∧
    ((fetching .closing).setSlot 3 (.payload 2 4 [{ address := 1, length := 35 }, { address := 2, length := 9 }] 0 30)).slot 3 =
      .payload 2 4 [{ address := 1, length := 35 }, { address := 2, length := 9 }] 0 30 ∧
    ((fetching .closing).setSlot 3 (.payload 2 4 [{ address := 1, length := 35 }] 0 30)).slot 3 =
      .payload 2 4 [{ address := 1, length := 35 }] 0 30 ∧ 35 ≤ 30 + 5 := by
  unfold State.eccClean; decide
/-- A fetch end on its way for record 4. -/
def ending (state : FrameState) (ok : Bool) : State :=
  (fetching state).onBm fun b => { b with fetchEnds := [(4, ok), (9, true)] }
theorem witness_FetchEndTaken :
    (∀ x ∈ live.bm.fetchEnds, x.1 ≠ (4 : Fin 2048).val) ∧
    (ending .filling false).bm.fetchEnds = ((4 : Fin 2048).val, false) :: [(9, true)] ∧
    (inState .failed (ending .ready true)).hp.device ≠ .running ∧ (ending .ready true).hp.device = .running ∧
    (ending .ready true).eccClean ∧ ((ending .ready true).frame 4).state = .ready ∧
    ((ending .sending true).frame 4).state = .sending ∧ ((ending .closing true).frame 4).state = .closing ∧
    ((ending .discarding true).frame 4).state = .discarding ∧ ((ending .filling false).frame 4).state = .filling ∧
    (((ending .filling false).setFlow 6 (someFlow [5, 4])).flow 6).queue.head? ≠ some 4 ∧
    ((ending .filling false).flow 6).queue.head? = some 4 := by
  unfold State.eccClean; decide
/-- The fetch end of record 4 behind that of record 9. -/
def endingBehind : State := (ending .ready true).onBm fun b => { b with fetchEnds := [(9, false), (4, true)] }
theorem witness_FetchEndTaken_behind :
    endingBehind.bm.fetchEnds = [(9, false)] ++ ((4 : Fin 2048).val, true) :: [] ∧
    (∀ x ∈ [((9 : Nat), false)], x.1 ≠ (4 : Fin 2048).val) ∧
    (after (.fetchEnd 4 []) endingBehind).bm.fetchEnds = [(9, false)] ∧
    ((after (.fetchEnd 4 []) endingBehind).frame 4).fetchEnded = true := by decide
/-- The last frame of a FLUSHING flow, and the last descriptor of a DELETING ring, both commands owed. -/
def lastFrame : State :=
  (((fetching .closing).setFlow 6 { someFlow [] with state := .flushing }).setSq 2
    { live.sq 2 with state := .deleting, inFlight := 1 }).onAp fun b => { b with outstanding :=
      [{ operation := .flushFlow 99, tag := 1 }, { operation := .flushFlow 6, tag := 42 }, { operation := .deleteSq 2, tag := 43 }] }
theorem witness_FrameRetires :
    ((fetching .closing).flow ((fetching .closing).frame 4).flow).state ≠ .flushing ∧
    ((fetching .closing).sq ((fetching .closing).frame 4).ring).state ≠ .deleting ∧
    (fetching .closing).bm.freeTail = some 8191 ∧
    ((fetching .closing).onBm fun b => { b with freeTail := none }).bm.freeTail = none ∧
    (lastFrame.frame 4).flow = 6 ∧ (lastFrame.frame 4).ring = 2 ∧ (lastFrame.flow 6).state = .flushing ∧
    (lastFrame.flow 6).held ≤ (lastFrame.frame 4).cellCount ∧ (lastFrame.sq 2).state = .deleting ∧
    (lastFrame.sq 2).inFlight ≤ 1 ∧
    lastFrame.ap.outstanding = [{ operation := .flushFlow 99, tag := 1 }] ++ { operation := .flushFlow 6, tag := 42 } ::
      [{ operation := .deleteSq 2, tag := 43 }] ∧
    [{ operation := .flushFlow 99, tag := 1 }] ++ [{ operation := .deleteSq 2, tag := 43 }] =
      [{ operation := .flushFlow 99, tag := 1 }] ++ { operation := .deleteSq 2, tag := (43 : BitVec 16) : Outstanding } :: [] ∧
    (∀ x ∈ [{ operation := .flushFlow 99, tag := (1 : BitVec 16) : Outstanding }],
      x.operation ≠ .flushFlow 6 ∧ x.operation ≠ .deleteSq 2) := by decide
-- R115: the FLUSH_FLOW is completed before the DELETE_SQ.
theorem test_retire_ends_both :
    (retire 4 lastFrame).ap.outstanding = [{ operation := .flushFlow 99, tag := 1 }] ∧
    (retire 4 lastFrame).sq 2 = SqContext.reset ∧ ((retire 4 lastFrame).flow 6).state = .disabled := by decide

theorem live_commandArrives : live.commandArrives := by unfold State.commandArrives; decide
theorem witness_RingsCreated :
    live.commandArrives ∧ ¬ (32 ≤ 31) ∧ (live.cq 1).state = .active ∧ (live.sq 2).state ≠ .absent ∧
    (live.sq 31).state = .absent ∧ (live.cq 15).state = .absent ∧ (0x40 : Address).toNat % 64 = 0 ∧
    (4096 : BitVec 16).toNat ∈ [16, 32, 64, 128, 256, 512, 1024, 2048, 4096] ∧ (2048 : BitVec 16).toNat ≤ 2048 ∧
    (16 : BitVec 8).toNat ≤ 16 ∧ (255 : BitVec 8).toNat ≤ 255 ∧ (4095 : BitVec 16).toNat ≤ 4095 := by
  refine ⟨live_commandArrives, ?_⟩; decide
/-- `live` with nothing in flight on ring 2. -/
def liveEmpty : State := live.setSq 2 { live.sq 2 with inFlight := 0 }
theorem witness_RingsDeleted :
    live.commandArrives ∧ liveEmpty.commandArrives ∧ (live.cq 0).state = .absent ∧ (live.cq 1).state = .active ∧
    (∃ m < 32, (live.sq m).state ≠ .absent ∧ (live.sq m).cq = 1) ∧
    (∀ m < 32, ((live.setSq 2 SqContext.reset).sq m).state ≠ .absent → ((live.setSq 2 SqContext.reset).sq m).cq ≠ 1) ∧
    (live.sq 0).state = .absent ∧ ((live.setSq 2 { live.sq 2 with state := .deleting }).sq 2).state = .deleting ∧
    (live.sq 2).state = .active ∧ (live.sq 2).held = none ∧ (live.sq 2).inFlight ≠ 0 ∧ (liveEmpty.sq 2).inFlight = 0 ∧
    (∀ x ∈ liveEmpty.ap.outstanding, x.operation ≠ .deleteSq 2) ∧ holding.commandArrives ∧
    (holding.sq 2).state = .active ∧ (holding.sq 2).held.isSome = true ∧ 1 < (holding.sq 2).inFlight ∧
    ((holding.setSq 2 { holding.sq 2 with inFlight := 1 }).sq 2).inFlight ≤ 1 := by
  unfold State.commandArrives; decide
theorem witness_FlowCommandsTaken :
    live.commandArrives ∧ (8193 : BitVec 16).toNat > 8192 ∧ (live.flow 6).state = .unconfigured ∧
    ((live.setFlow 6 { someFlow [] with state := .disabled, held := 0 }).flow 6).held = 0 ∧
    ((live.setFlow 6 { someFlow [] with state := .disabled }).flow 6).held ≠ 0 ∧
    ((live.setFlow 6 (someFlow [])).flow 6).state = .enabled ∧
    ((live.setFlow 6 { someFlow [] with state := .flushing }).flow 6).state = .flushing ∧ 127 < 128 := by
  refine ⟨live_commandArrives, ?_⟩; decide
/-- The queue of flow 6 holds one FILLING record, its link DISABLED. -/
def flushable : State := fetching .filling
theorem witness_FlushFlowTaken :
    live.commandArrives ∧ live.eccClean ∧ (live.flow 6).state = .unconfigured ∧ flushable.commandArrives ∧
    flushable.eccClean ∧ (flushable.flow 6).state = .enabled ∧ (flushable.flow 6).queue = [4] ∧
    (flushable.flow 6).held ≠ 0 ∧ (flushable.frame 4).state = .filling ∧ (flushable.frame 4).flow = 6 ∧
    (flushable.link (flushable.flow 6).link).state ≠ .active ∧ ((fetching .sending).frame 4).state = .sending ∧
    flushable.dfu.held = [] ∧ ((live.setFlow 6 { someFlow [] with held := 0 }).flow 6).queue = [] := by
  unfold State.commandArrives State.eccClean; decide
/-- Flow 6 of `flushable` with records 4 (SENDING), 5 (READY, its fetch ended) and 7 (FILLING), and ring 3's held
descriptor naming it. -/
def mixed : State :=
  (((((flushable.setFrame 4 (someFrame .sending)).setFrame 5 { someFrame .ready with fetchEnded := true }).setFrame 7
    (someFrame .filling)).setFlow 6 { someFlow [4, 5, 7] with link := 2, held := 9 }).setSq 3 { live.sq 2 with
      held := some { descriptor := decodeDescriptor someDescriptor, slot := 14, need := 3 } }).onDfu fun b =>
        { b with held := [{ ring := 3, ready := true, stopped := false }] }
theorem witness_FlushWalksQueue :
    mixed.commandArrives ∧ mixed.eccClean ∧ (mixed.flow 6).state = .enabled ∧ (mixed.link (mixed.flow 6).link).state ≠ .active ∧
    (mixed.flow 6).queue.Nodup ∧
    (∀ r ∈ (mixed.flow 6).queue, (mixed.frame r).flow = 6 ∧ (mixed.sq (mixed.frame r).ring).state ≠ .deleting ∧
      ((mixed.frame r).state = .filling ∨ (mixed.frame r).state = .ready ∨ (mixed.frame r).state = .sending) ∧
      (mixed.frame r).cause = none) ∧
    (mixed.dfu.held.map HeldEntry.ring).Nodup ∧
    ∃ h, (mixed.sq 3).held = some h ∧ h.descriptor.flow = 6 :=
  ⟨by unfold State.commandArrives; decide, ⟨rfl, rfl, rfl⟩, by decide, by decide, by decide, by decide, by decide,
    { descriptor := decodeDescriptor someDescriptor, slot := 14, need := 3 }, rfl, by decide +kernel⟩
-- R34: record 4 stays, record 5 retires FLUSHED, record 7 is DISCARDING.
theorem test_flushFlow_mixed :
    ((after (.flushFlow 5 6) mixed).flow 6).queue = [4] ∧ ((after (.flushFlow 5 6) mixed).flow 6).flushed = 1 ∧
    ((after (.flushFlow 5 6) mixed).frame 5).state = .free ∧ ((after (.flushFlow 5 6) mixed).frame 7).state = .discarding ∧
    ((after (.flushFlow 5 6) mixed).sq 3).held = none := by decide +kernel
theorem witness_QueriesAnswered : live.commandArrives ∧ 127 < (128 : BitVec 16).toNat ∧ 3 < (4 : BitVec 8).toNat :=
  ⟨live_commandArrives, by decide⟩
/-- Link 0 waiting for its partner, the ENABLE_LINK owed. -/
def offering : State :=
  (owing (.enableLink 0) live).setLink 0 { LinkContext.reset with
    state := .awaitPartner, offerTimer := some 1, linkUpTimer := some 1000, outstanding := some .enable }
/-- The outstanding list of `owing` without the operation between. -/
def others : List Outstanding := [{ operation := .flushFlow 99, tag := 1 }, { operation := .deleteSq 99, tag := 2 }]
theorem owing_owes (o : LongOperation) (s : State) (h : o ≠ .flushFlow 99) :
    (owing o s).owes { operation := o, tag := 42 } (others.take 1) (others.drop 1) := by
  refine ⟨rfl, ?_⟩
  intro x hx
  simp only [others, List.take, List.mem_singleton] at hx
  subst hx
  exact fun e => h e.symm
theorem witness_LinkEnabled :
    live.commandArrives ∧ 1000 < (1001 : BitVec 16).toNat ∧ (live.link 0).state = .disabled ∧
    (offering.link 0).state = .awaitPartner ∧ ((sending .active).link 0).state = .active ∧
    offering.commandArrives ∧ (sending .active).commandArrives := by
  unfold State.commandArrives; decide
/-- Link 0 ACTIVE and idle with a pending activation, the command owed. -/
def activating : State :=
  ((owing (.activateCalendar 0) live).setLink 0 (someLink .active)).setSched 0
    { Scheduler.reset with activation := true, shadow := [(3, some 6)], pointer := 9 }
theorem witness_LinkDisabled :
    live.commandArrives ∧ offering.commandArrives ∧ (offering.link 0).outstanding = some .enable ∧
    (activating.link 0).state = .active ∧ (activating.link 0).serializer = none ∧
    (activating.sched 0).activation = true ∧ (waiting.link 0).state = .active ∧ (waiting.sched 0).activation = false ∧
    ((sending .active).link 0).serializer ≠ none ∧ ((sending .active).sched 0).activation = false ∧
    ((sending .draining).link 0).state = .draining ∧ ((live.setLink 0 (someLink .failed)).link 0).state = .failed := by
  unfold State.commandArrives; decide
theorem witness_LinkComesUpOrTimesOut :
    (1023 : BitVec 16).toNat ≤ 1023 ∧ offering.hp.device = .running ∧ (offering.link 0).state = .awaitPartner ∧
    (offering.link 0).outstanding = some .enable ∧
    offering.owes { operation := .enableLink 0, tag := 42 } (others.take 1) (others.drop 1) ∧
    (∀ f < 128, (offering.flow f).link = 0 → (offering.flow f).queue = []) ∧ (offering.sched 0).activation = false :=
  ⟨by decide, by decide, by decide, by decide, owing_owes (.enableLink 0) live (by decide), fun _ _ _ => rfl, by decide⟩
theorem witness_LinkComesUpOrTimesOut_timers :
    offering.hp.device = .running ∧ (offering.link 0).state = .awaitPartner ∧
    (offering.link 0).offerTimer.isSome = true ∧ (offering.link 0).linkUpTimer.isSome = true ∧
    (offering.link 0).outstanding = some .enable ∧ (live.link 0).state ≠ .awaitPartner ∧
    offering.owes { operation := .enableLink 0, tag := 42 } (others.take 1) (others.drop 1) :=
  ⟨by decide, by decide, by decide, by decide, by decide, by decide, owing_owes (.enableLink 0) live (by decide)⟩
theorem witness_CreditTakenOrMessageIgnored :
    (sending .active).hp.device = .running ∧ ((sending .active).link 0).state = .active ∧
    ((sending .draining).link 0).state = .draining ∧
    (sending .active).available 0 1 + (3 : BitVec 16).toNat ≤ (sending .active).announced 0 1 ∧
    (live.link 0).state = .disabled ∧ (offering.link 0).state = .awaitPartner ∧ 1023 < (1024 : BitVec 16).toNat := by decide
theorem witness_LinkFails :
    (sending .draining).hp.device = .running ∧ (sending .draining).eccClean ∧
    ((sending .draining).link 0).serializer = some someSerializer ∧ someSerializer.record = 4 ∧
    ((sending .draining).frame 4).state = .sending ∧ ((sending .draining).frame 4).fetchEnded = false ∧
    ((sending .draining).link 0).outstanding = some .disable ∧ ((sending .active).sched 0).activation = false ∧
    (sending .active).announced 0 1 < (sending .active).available 0 1 + (4 : BitVec 16).toNat ∧
    (waiting.link 0).state = .active ∧ (waiting.link 0).serializer = none ∧
    (sending .draining).owes { operation := .disableLink 0, tag := 42 } (others.take 1) (others.drop 1) :=
  ⟨by decide, ⟨rfl, rfl, rfl⟩, by decide, by decide, by decide, by decide, by decide, by decide, by decide, by decide,
    by decide, owing_owes (.disableLink 0) live (by decide)⟩
/-- The frame on link 0 with its fetch ended, and an activation pending. -/
def sendingEnded : State :=
  ((owing (.activateCalendar 0) (sending .active)).setFrame 4 { someFrame .sending with fetchEnded := true }).setSched 0
    { Scheduler.reset with activation := true }
theorem witness_LinkDisabled_activation :
    sendingEnded.commandArrives ∧ (sendingEnded.link 0).state = .active ∧ (sendingEnded.link 0).serializer ≠ none ∧
    (sendingEnded.sched 0).activation = true ∧
    sendingEnded.owes { operation := .activateCalendar 0, tag := 42 } (others.take 1) (others.drop 1) :=
  ⟨live_commandArrives, by decide, by decide, by decide, owing_owes (.activateCalendar 0) live (by decide)⟩
-- R78, R99: DRAINING, the activation applied, its command completed and the DISABLE_LINK outstanding.
theorem test_disableLink_activation :
    let t := after (.disableLink 5 0) (sendingEnded.setSched 0 { sendingEnded.sched 0 with shadow := [(3, some 6)] })
    (t.link 0).state = .draining ∧ (t.sched 0).active = [(3, some 6)] ∧
    t.ap.outstanding.map Outstanding.operation = [.flushFlow 99, .deleteSq 99, .disableLink 0] := by decide
/-- The frame on link 0 with its serializer stopped by a refused report. -/
def sendingStopped : State :=
  (sending .active).setLink 0 { someLink .active with serializer := some { someSerializer with stopped := true } }
theorem witness_LinkFails_ended :
    sendingEnded.hp.device = .running ∧ (sendingEnded.link 0).serializer = some someSerializer ∧
    someSerializer.stopped = false ∧ sendingEnded.eccClean ∧ (sendingEnded.frame 4).state = .sending ∧
    (sendingEnded.frame 4).fetchEnded = true ∧ (sendingEnded.link 0).state = .active ∧
    (sendingEnded.sched 0).activation = true ∧
    sendingEnded.ap.outstanding = [{ operation := .flushFlow 99, tag := 1 }] ++
      { operation := .activateCalendar 0, tag := 42 } :: [{ operation := .deleteSq 99, tag := 2 }] ∧
    (sendingStopped.link 0).serializer = some { someSerializer with stopped := true } := by
  unfold State.eccClean; decide
-- R69: no end marker follows a frame that a failure has cut short; DOWN is all that the link has sent.
theorem test_fatalReport_after_failure :
    (after (.fatalReport .frameTableUncorrectable) (after (.malformedMessage 0) sendingStopped)).lu.out = [(0, .down 0)] ∧
    (after (.fatalReport .frameTableUncorrectable) sendingStopped).lu.out = [(0, .endMarker false)] := by decide
-- R18: a stopped serializer keeps its fields, and its frame gets no link end.
theorem test_malformedMessage_stopped :
    ((after (.malformedMessage 0) sendingStopped).link 0).state = .failed ∧
    ((after (.malformedMessage 0) sendingStopped).link 0).serializer =
      some { someSerializer with stopped := true, lost := true } ∧
    (after (.malformedMessage 0) sendingStopped).frame 4 = someFrame .sending := by decide
theorem witness_ClassMapAndCalendarWritten :
    live.commandArrives ∧ (∃ c < 8, 3 < (0x04 : BitVec 64).toNat / 256 ^ c % 256) ∧
    (∀ c < 8, (0x0303030303030303 : BitVec 64).toNat / 256 ^ c % 256 ≤ 3) ∧ (live.link 0).state = .disabled ∧
    (activating.link 0).state ≠ .disabled ∧ activating.commandArrives ∧ (activating.sched 0).activation = true ∧
    (live.sched 0).activation = false ∧ 63 + 1 ≤ 64 ∧ ¬ 63 + 2 ≤ 64 := by
  unfold State.commandArrives; decide
theorem witness_CalendarActivated :
    live.commandArrives ∧ activating.commandArrives ∧ (activating.sched 0).activation = true ∧
    (live.sched 0).activation = false ∧ (live.link 0).state ≠ .active ∧
    (∀ x ∈ live.ap.outstanding, x.operation ≠ .activateCalendar 0) ∧ ((sending .active).link 0).serializer ≠ none ∧
    (activating.link 0).serializer = none ∧ (∀ f < 128, (activating.flow f).link = 0 → (activating.flow f).queue = []) ∧
    activating.owes { operation := .activateCalendar 0, tag := 42 } (others.take 1) (others.drop 1) := by
  refine ⟨live_commandArrives, by unfold State.commandArrives; decide, by decide, by decide, by decide, by decide, by decide,
    by decide, fun _ _ _ => rfl, owing_owes (.activateCalendar 0) live (by decide)⟩

-- R98, third case: a frame queued on the idle link.
theorem witness_CalendarActivated_considered :
    waiting.commandArrives ∧ (waiting.sched 0).activation = false ∧ (waiting.link 0).state = .active ∧
    (waiting.link 0).serializer = none ∧ (waiting.flow 6).link = 0 ∧ (waiting.flow 6).queue ≠ [] := by
  unfold State.commandArrives; decide
-- R98, R93: the search finds its winner before the wrap, so the activation stays pending.
theorem test_activateCalendar_considered :
    let t := after (.activateCalendar 5 0) waiting
    (t.link 0).serializer ≠ none ∧ (t.sched 0).activation = true ∧ (t.sched 0).pointer = 11 := by decide +kernel

theorem waiting_mayGrant : waiting.mayGrant 0 6 :=
  ⟨by decide, by decide, by decide, 4, [], by decide, by decide, by decide, by decide⟩
theorem activating_mayNotGrant : ∀ f, ¬ activating.mayGrant 0 f := by
  rintro f ⟨_, _, _, r, rest, h, _⟩
  exact absurd h (by simp [activating, owing, live, State.flow, tableGet, flowUnlisted, FlowContext.reset, State.reset,
    BmBlock.reset, State.setSched, State.setLink, State.onEs, State.onLu, State.onAp])
/-- `waiting` with its calendar empty from the pointer on and an activation pending. -/
def waitingWrap : State := waiting.setSched 0 { waiting.sched 0 with activation := true, pointer := 11, shadow := [(63, some 6)] }
theorem witness_LinkGranted :
    waiting.hp.device = .running ∧ waiting.eccClean ∧ (waiting.link 0).state = .active ∧
    (waiting.link 0).serializer = none ∧ (waiting.flow 6).queue = [4] ∧ waiting.mayGrant 0 6 ∧
    ((waiting.sched 0).mask.getLsbD (waiting.flow 6).cls = false) ∧ (waiting.sched 0).pointer < 64 ∧
    tableGet calendarUnlisted (waiting.sched 0).active ((5 + 5) % 64) = some 6 ∧
    (∀ j < 5, tableGet calendarUnlisted (waiting.sched 0).active ((5 + j) % 64) = none) ∧
    (waiting.sched 0).activation = false ∧ 0 < (waiting.sched 0).pointer ∧ 5 + 5 < 64 ∧
    (waitingWrap.sched 0).activation = true ∧
    (∀ p < 64, 11 ≤ p → tableGet calendarUnlisted (waitingWrap.sched 0).active p = none) ∧
    tableGet calendarUnlisted (waitingWrap.sched 0).shadow 63 = some 6 ∧
    (∀ j < 63, tableGet calendarUnlisted (waitingWrap.sched 0).shadow j = none) ∧
    (∀ f, ¬ activating.mayGrant 0 f) :=
  ⟨by decide, ⟨rfl, rfl, rfl⟩, by decide, by decide, by decide, waiting_mayGrant, by decide, by decide, by decide, by decide,
    by decide, by decide, by decide, by decide, by decide, by decide, by decide, activating_mayNotGrant⟩
/-- `waiting` with class 2 expedited, the pointer one before flow 6. -/
def waitingUrgent : State := waiting.setSched 0 { waiting.sched 0 with mask := 4, expedited := 5 }
/-- `waiting` without credit, an activation pending. -/
def waitingCredit : State :=
  (waiting.setLink 0 { someLink .active with available := [] }).setSched 0 { waiting.sched 0 with activation := true }
theorem waitingCredit_mayNotGrant : ∀ f, ¬ waitingCredit.mayGrant 0 f := by
  rintro f ⟨_, _, _, r, rest, hq, _, hc, _⟩
  by_cases e : f = 6
  · subst e
    obtain rfl : 4 = r := (List.cons.inj hq).1
    exact absurd hc (by decide)
  · exact absurd hq (by simp [waitingCredit, waiting, live, e, State.flow, State.setFlow, State.onBm, State.reset,
      BmBlock.reset, FlowContext.reset, tableGet, flowUnlisted])
-- R94, R99: no slot names a flow; every queue empty; frames queued and none may go.
theorem witness_LinkGranted_noWinner :
    (∀ p < 64, ∀ g, ¬ (tableGet calendarUnlisted ((waiting.setSched 0 { waiting.sched 0 with active := [] }).sched 0).active p
      = some g)) ∧
    ((∀ f < 128, (activating.flow f).link = 0 → (activating.flow f).queue = []) ∧ (activating.sched 0).activation = true ∧
      activating.owes { operation := .activateCalendar 0, tag := 42 } (others.take 1) (others.drop 1)) ∧
    (∀ f, ¬ waitingCredit.mayGrant 0 f) ∧ (waitingCredit.sched 0).activation = true ∧
    (waitingCredit.flow 6).link = 0 ∧ (waitingCredit.flow 6).queue ≠ [] :=
  ⟨fun _ _ _ h => (nomatch h), ⟨fun _ _ _ => rfl, by decide, owing_owes (.activateCalendar 0) live (by decide)⟩,
    waitingCredit_mayNotGrant, by decide, by decide, by decide⟩
theorem witness_LinkGranted_expedited :
    (5 + 1 + 0) % 128 = 6 ∧ (waitingUrgent.sched 0).mask.getLsbD (waitingUrgent.flow 6).cls = true ∧
    waitingUrgent.mayGrant 0 6 :=
  ⟨by decide, by decide, by decide, by decide, by decide, 4, [], by decide, by decide, by decide, by decide⟩

theorem witness_CellSentTaken :
    (live.link 0).serializer = none ∧ ((sending .active).link 0).serializer = some someSerializer ∧
    (sending .active).hp.device = .running ∧ (sending .active).eccClean ∧ someSerializer.state = .transmitting ∧
    someSerializer.stopped = false ∧ ((sending .active).frame someSerializer.record).state = .sending ∧
    someSerializer.sent + 1 ≠ someSerializer.cellCount ∧ someSerializer.filled ≤ someSerializer.sent + 1 ∧
    someSerializer.sent + 1 < 2 ∧ 2 + 1 = someSerializer.cellCount := by
  unfold State.eccClean; decide
/-- `sending` on the frame's last cell, 88 bytes of cell 11. -/
def lastCell (state : LinkState) (fetchEnded : Bool) : State :=
  ((sending state).setLink 0 { (sending state).link 0 with
    serializer := some { someSerializer with sent := 2, filled := 3, nextCell := 11 } }).setFrame 4
      { someFrame .sending with filled := 3, sent := 2, fetchEnded := fetchEnded }
theorem witness_CellSentTaken_last :
    ((lastCell .active false).link 0).serializer = some { someSerializer with sent := 2, filled := 3, nextCell := 11 } ∧
    (lastCell .active false).hp.device = .running ∧ (lastCell .active false).eccClean ∧
    ((lastCell .active false).frame 4).state = .sending ∧ 2 + 1 = someSerializer.cellCount ∧
    ((lastCell .active false).frame 4).fetchEnded = false ∧ ((lastCell .draining true).frame 4).fetchEnded = true ∧
    ((lastCell .draining true).link 0).state = .draining := by
  unfold State.eccClean; decide
-- R106, R108: the second cell is not filled, so the serializer is STARVED with 20 µs. R109, R113: GOOD after the last cell, the frame CLOSING, or retired where its fetch has ended; R79: the drain's end.
theorem test_cellSent :
    ((after (.cellSent 0 []) (sending .active)).link 0).serializer =
      some { someSerializer with state := .starved, sent := 1, nextCell := 10, timer := some 20 } ∧
    (after (.cellSent 0 []) (lastCell .active false)).lu.out.drop 1 = [(0, .endMarker true)] ∧
    ((after (.cellSent 0 []) (lastCell .active false)).frame 4).state = .closing ∧
    (after (.cellSent 0 []) (lastCell .draining true)).frame 4 = FrameRecord.reset ∧
    ((after (.cellSent 0 []) (lastCell .draining true)).link 0).state = .disabled := by decide +kernel

-- The model's choice (log entry 34): the FLUSH_FLOW's completion, tag 2, before the DISABLE_LINK's, tag 1.
theorem test_cellSent_completions :
    let s := (((lastCell .draining true).setFlow 6 { someFlow [4] with state := .flushing }).onAp fun b =>
      { b with outstanding := [{ operation := .disableLink 0, tag := 1 }, { operation := .flushFlow 6, tag := 2 }] })
    ((after (.cellSent 0 []) s).hp.out.filterMap fun o => match o with
      | .write32 _ r => some (r.toNat % 2 ^ 24)
      | _ => none) = [0x130002, 0x210001] := by decide +kernel

/-- `sending .active` with the serializer STARVED and an abort order on its way. -/
def starving : State :=
  ((sending .active).setLink 0 { someLink .active with
    serializer := some { someSerializer with state := .starved, timer := some 20 } }).onLu fun b => { b with aborts := [(0, 4)] }
theorem witness_FramesAborted :
    (starving.link 0).serializer = some { someSerializer with state := .starved, timer := some 20 } ∧
    starving.hp.device = .running ∧ starving.eccClean ∧ ((0 : Fin 4).val, (4 : Fin 2048).val) ∈ starving.lu.aborts ∧
    (starving.frame 4).state = .sending ∧ (starving.frame 4).fetchEnded = false ∧ (live.link 0).serializer = none ∧
    ((0 : Fin 4).val, (4 : Fin 2048).val) ∉ live.lu.aborts := by
  unfold State.eccClean; decide
/-- `starving` with its serializer stopped. -/
def starvingStopped : State :=
  starving.setLink 0 { someLink .active with
    serializer := some { someSerializer with state := .starved, timer := some 20, stopped := true } }
theorem witness_FramesAborted_elsewhere :
    (starvingStopped.link 0).serializer =
      some { someSerializer with state := .starved, timer := some 20, stopped := true } ∧
    ((0 : Fin 4).val, (4 : Fin 2048).val) ∈ starvingStopped.lu.aborts ∧ (inState .failed starving).hp.device ≠ .running ∧
    ((0 : Fin 4).val, (4 : Fin 2048).val) ∈ (inState .failed starving).lu.aborts := by decide
theorem witness_frameEndLeads :
    ((sending .draining).link 0).state = .draining ∧ ((sending .draining).link 0).outstanding = some .disable ∧
    (sending .draining).owes { operation := .disableLink 0, tag := 42 } (others.take 1) (others.drop 1) :=
  ⟨by decide, by decide, owing_owes (.disableLink 0) live (by decide)⟩
/-- A state with disturbed memories. -/
def upset (us : List Upset) (s : State) : State := strike us s
theorem witness_ProtectedReadsChecked :
    tableGet eccUnlisted (upset [.frameRecord 4 false] live).bm.frameEcc 4 = .oneBit ∧
    tableGet eccUnlisted (upset [.frameRecord 4 true] live).bm.frameEcc 4 = .uncorrectable ∧
    tableGet eccUnlisted live.bm.frameEcc 4 = .valid ∧
    tableGet eccUnlisted (upset [.linkEntry 9 false] live).bm.linkEcc 9 = .oneBit ∧
    tableGet eccUnlisted (upset [.linkEntry 9 true] live).bm.linkEcc 9 = .uncorrectable ∧
    tableWf eccUnlisted (upset [.cellByte 9 3 false, .cellByte 9 1 true] live).bm.cellEcc = true ∧
    (upset [.frameRecord 4 false] (ending .ready true)).bm.fetchEnds = ((4 : Fin 2048).val, true) :: [(9, true)] ∧
    (ending .ready true).hp.device = .running := by decide
theorem witness_ProtectedReadsChecked_heads :
    (waiting.link 0).state = .active ∧ (waiting.link 0).serializer = none ∧
    (∃ f < 128, (waiting.flow f).link = 0 ∧ (waiting.flow f).queue ≠ []) ∧
    (List.range 128).filterMap (fun f => (waiting.flow f).queue.head?) = [] ++ 4 :: [] ∧ 4 ∉ waiting.es.stopped := by
  decide +kernel
-- R17, R87: an arbitration reads and corrects the head of every flow, the loser's among them.
theorem test_consider_corrects_heads :
    (consider 0 (upset [.frameRecord 5 false] ((waiting.setFlow 9 { someFlow [5] with link := 3 }).setFrame 5
      (someFrame .filling)))).ec.reports = [.correction .frameTable] := by decide +kernel

theorem witness_UncorrectableEventsRefused :
    (ending .ready true).hp.device = .running ∧
    (upset [.frameRecord 4 true] (ending .ready true)).bm.fetchEnds = ((4 : Fin 2048).val, true) :: [(9, true)] ∧
    tableGet eccUnlisted (upset [.frameRecord 4 true] (ending .ready true)).bm.frameEcc 4 = .uncorrectable ∧
    (flushable.flow (6 : BitVec 16).toNat).queue = [] ++ 4 :: [] ∧ (flushable.flow (6 : BitVec 16).toNat).state = .enabled ∧
    (filling .filling 10).read 3 = some (someRead 10) ∧
    tableGet eccUnlisted (upset [.linkEntry 9 true] (filling .filling 10)).bm.linkEcc 9 = .uncorrectable ∧
    tableGet eccUnlisted (upset [.linkEntry 9 true] (filling .filling 10)).bm.frameEcc 4 = .valid ∧
    tableGet eccUnlisted (upset [.frameRecord 4 true] waiting).bm.frameEcc 4 = .uncorrectable ∧
    (256 ≤ 250 + 10 ∧ 256 * (0 + 1) < 600 ∧ 0 + 1 < 3 ∧
      (((filling .filling 10).setFlow 6 (someFlow [5, 4])).flow 6).queue.head? ≠ some 4) ∧
    ((sending .active).link 0).serializer = some someSerializer ∧ someSerializer.stopped = false ∧
    someSerializer.state = .transmitting ∧ someSerializer.sent + 1 ≠ someSerializer.cellCount ∧
    (starving.link 0).serializer = some { someSerializer with state := .starved, timer := some 20 } := by decide
/-- The head's fill stopped at a bad link entry: FILLING on a link without a serializer, and SENDING. -/
theorem witness_UncorrectableEventsRefused_head :
    let s := upset [.linkEntry 9 true] (filling .filling 10)
    let t := upset [.linkEntry 9 true] starved
    (s.frame 4).state = .filling ∧ (s.flow 6).queue.head? = some 4 ∧ (s.link 2).serializer = none ∧
    (s.link 2).state ≠ .active ∧ (s.link 2).state ≠ .draining ∧
    ((s.setLink 2 (someLink .active)).link 2).state = .active ∧
    (t.frame 4).state = .sending ∧ (t.flow 6).queue.head? = some 4 ∧
    (t.link 2).serializer = some { someSerializer with state := .starved, filled := 0, timer := some 20 } ∧
    t.bm.cellEcc = [] ∧ tableGet eccUnlisted t.bm.linkEcc 9 = .uncorrectable ∧
    tableGet eccUnlisted t.bm.frameEcc 4 = .valid := by decide
/-- A bad link entry of the second of the three cells that an admission takes. -/
theorem witness_UncorrectableEventsRefused_admission :
    let s := upset [.linkEntry 1 true] readingRoom
    s.accepts (decodeDescriptor someDescriptor) ∧ ((decodeDescriptor someDescriptor).length + 255) / 256 = 3 ∧
    s.slot 3 = .descRead 2 14 ∧ awaitsResponse s 3 = true ∧ (s.sq 2).state = .active ∧
    (decodeDescriptor someDescriptor).flow = 6 ∧ (s.flow 6).state = .enabled ∧ (s.flow 6).held + 3 ≤ (s.flow 6).cap ∧
    3 ≤ s.bm.freeCount ∧ s.bm.freeRecords.head? = some 0 ∧ tableGet eccUnlisted s.bm.frameEcc 0 = .valid ∧
    [0, 1, 2].length = 3 ∧ s.bm.freeHead = [0, 1, 2].head? ∧
    (∀ j < 2, s.linkEntry ([0, 1, 2].getD j 0) = [0, 1, 2][j + 1]?) ∧ 3 < s.bm.freeCount ∧
    [0, 1, 2].take 3 = [0] ++ 1 :: [2] ∧ tableGet eccUnlisted s.bm.linkEcc 0 = .valid ∧
    tableGet eccUnlisted s.bm.linkEcc 1 = .uncorrectable := by
  unfold State.accepts; decide +kernel
theorem witness_UncorrectableEventsRefused_retry :
    let s := upset [.frameRecord 0 true] holdingRoom
    s.slot 0 = .idle ∧ s.dfu.held = [{ ring := 7, ready := false, stopped := false }] ++
      { ring := 2, ready := true, stopped := false } :: [] ∧
    (s.sq 2).held = some { descriptor := decodeDescriptor someDescriptor, slot := 14, need := 3 } ∧
    (decodeDescriptor someDescriptor).flow = 6 ∧ (s.flow 6).state = .enabled ∧ (s.flow 6).held + 3 ≤ (s.flow 6).cap ∧
    3 ≤ s.bm.freeCount ∧ s.bm.freeRecords.head? = some 0 ∧ tableGet eccUnlisted s.bm.frameEcc 0 = .uncorrectable := by
  decide +kernel
-- R33: ABORTED, status 6, the flow as it was.
theorem test_flushFlow_aborted :
    (after (.flushFlow 5 6) (upset [.frameRecord 4 true] flushable)).hp.out.head? =
      some (.write32 0x21E0 0x01000000_00000000_00000000_00000000_00000000_00000000_00000000_06130005) ∧
    ((after (.flushFlow 5 6) (upset [.frameRecord 4 true] flushable)).flow 6).state = .enabled := by decide

/-- `sending` with two cells filled, a byte of the second one, cell 10, disturbed. -/
def badCell : State :=
  upset [.cellByte 10 255 true] ((sending .active).setLink 0 { someLink .active with
    serializer := some { someSerializer with filled := 2 } })
theorem witness_BadCellEndsFrame :
    (badCell.link 0).serializer = some { someSerializer with filled := 2 } ∧ badCell.hp.device = .running ∧
    tableWf eccUnlisted badCell.bm.cellEcc = true ∧ (badCell.frame 4).state = .sending ∧
    tableGet eccUnlisted badCell.bm.frameEcc 4 = .valid ∧ tableGet eccUnlisted badCell.bm.linkEcc 9 = .valid ∧
    0 + 1 < 2 ∧ badCell.linkEntry 9 = some 10 ∧
    tableGet eccUnlisted badCell.bm.cellEcc (256 * 10 + 255) = .uncorrectable ∧
    (∀ o < 256, tableGet eccUnlisted badCell.bm.cellEcc (256 * 10 + o) ≠ .oneBit) ∧
    (∀ o < 256, tableGet eccUnlisted badCell.bm.cellEcc (256 * 9 + o) = .valid) := by decide +kernel
-- R18, R106: where the record is bad the cell's bytes have gone, the record stands and the serializer is stopped. R112:
-- where the next cell is bad the frame ends ABORT with DATA_ERROR.
theorem test_cellSent_errors :
    (after (.cellSent 0 [.frameRecord 4 true]) (sending .active)).lu.out.length = 1 ∧
    (after (.cellSent 0 [.frameRecord 4 true]) (sending .active)).frame 4 = someFrame .sending ∧
    ((after (.cellSent 0 [.frameRecord 4 true]) (sending .active)).link 0).serializer =
      some { someSerializer with stopped := true } ∧
    (after (.cellSent 0 []) badCell).lu.out.drop 1 = [(0, .endMarker false)] ∧
    ((after (.cellSent 0 []) badCell).frame 4).cause = some .dataError ∧
    (after (.cellSent 0 []) badCell).ec.reports = [.cellData 0 10] ∧ (after (.cellSent 0 []) badCell).available 0 1 = 7 := by
  decide +kernel
theorem witness_ErrorPolicyAndReports :
    live.hp.device = .running ∧ live.ec.cellDataCount + 1 < live.ec.threshold ∧
    (live.onEc fun b => { b with cellDataCount := 255 }).ec.threshold ≤ 255 + 1 ∧
    (inState .selfResetting live).hp.device = .selfResetting ∧ live.commandArrives ∧ (65535 : Word32).toNat ≤ 65535 ∧
    65535 < (65536 : Word32).toNat ∧ (inState .resetting idleAp).hp.device = .resetting ∧
    readsEmpty (inState .resetting idleAp) = true := by
  unfold State.commandArrives; decide
theorem witness_FatalErrorContained :
    live.hp.device = .running ∧ live.hp.mode = .halt ∧ (live.onHp fun b => { b with mode := .haltLinksDown }).hp.mode = .haltLinksDown ∧
    (live.onHp fun b => { b with mode := .selfReset }).hp.mode = .selfReset ∧ (∃ i < 9, live.read i ≠ none) ∧
    (∀ i < 9, idleAp.read i = none) ∧ (inState .stopped live).hp.device = .stopped ∧
    (inState .failed live).hp.device = .failed := by decide
theorem witness_ResetsComplete :
    (∀ i < 9, (inState .selfResetting idleAp).read i = none) ∧ (inState .selfResetting idleAp).hp.device = .selfResetting ∧
    idleAp.ec.multiple = false ∧ (idleAp.onEc fun b => { b with multiple := true }).ec.multiple = true ∧
    (inState .resetting idleAp).hp.device = .resetting ∧ (∃ i < 9, live.read i ≠ none) := by decide
theorem witness_LongCommandsEnd :
    live.hp.device = .running ∧ ((live.setFlow 6 { someFlow [] with state := .flushing, held := 0 }).flow 6).held = 0 ∧
    ((live.setSq 2 { live.sq 2 with state := .deleting, inFlight := 0 }).sq 2).inFlight = 0 ∧
    ((live.setLink 0 { someLink .draining with outstanding := some .disable }).link 0).outstanding = some .disable ∧
    ((live.setLink 0 { someLink .draining with outstanding := some .disable }).link 0).serializer = none ∧
    (owing (.flushFlow 6) live).owes { operation := .flushFlow 6, tag := 42 } (others.take 1) (others.drop 1) ∧
    (owing (.deleteSq 2) live).owes { operation := .deleteSq 2, tag := 42 } (others.take 1) (others.drop 1) :=
  ⟨by decide, by decide, by decide, by decide, by decide, owing_owes (.flushFlow 6) live (by decide),
    owing_owes (.deleteSq 2) live (by decide)⟩
/-- The part after RUN, a command waiting. -/
def started : State := { inState .running configured with pending := [.acrConsumerIndexWrite 0] }
theorem started_free : ∀ r, (started.frame r).state = .free := fun _ => rfl
theorem started_inUse : started.inUse = [] := List.filter_eq_nil_iff.mpr fun r _ => by simp [started_free]
/-- After power-on the free cells run in rising order. -/
theorem started_chain : ∀ n c, c + n ≤ 8192 → chainFrom started n c = List.range' c n
  | 0, _, _ => rfl
  | n + 1, c, h => by
    have e : started.linkEntry c = if c < 8191 then some (c + 1) else none := rfl
    by_cases hc : c < 8191
    · simp only [chainFrom, e, if_pos hc, List.range'_succ, started_chain n (c + 1) (by omega)]
    · obtain rfl : n = 0 := by omega
      simp [chainFrom, e, hc]
theorem started_freeCells : started.freeCells = List.range 8192 := by
  rw [List.range_eq_range']; exact started_chain 8192 0 (Nat.le_refl _)
theorem started_steps : step started = .next (after (.acrConsumerIndexWrite 0) { started with pending := [] }) := rfl
theorem started_creditLaw : started.creditLaw := fun _ _ => ⟨Nat.le_refl _, fun _ => ⟨rfl, rfl⟩⟩
theorem started_recordLaw : started.recordLaw := by
  have h : started.bm.freeRecords = List.range 2048 := by
    simp only [started, inState, configured, State.onHp, State.reset, BmBlock.reset, recordTotal]
  exact ⟨h ▸ List.nodup_range, fun r => by rw [h, List.mem_range]; simp [started_free], fun r _ => started_free r⟩
theorem started_poolLaw : started.poolLaw := by
  refine ⟨?_, ?_, ?_, ?_, ?_, ?_, ?_⟩
  · rw [started_freeCells, List.length_range]; rfl
  · rw [started_freeCells, List.getLast?_range]; rfl
  · intro c h; obtain rfl : 8191 = c := Option.some.inj h
    rfl
  · simp [started_inUse]
  · simp [started_inUse, started_freeCells]
  · rw [started_inUse]; rfl
  · intro n h e; cases e
theorem started_queueLaw : started.queueLaw := by
  intro f
  refine ⟨List.nodup_nil, fun r => ?_, fun r h => (nomatch h), ?_, Nat.zero_le _, fun _ => rfl⟩
  · simp [started_free]; exact List.not_mem_nil
  · rw [started_inUse]; rfl
theorem started_limitLaw : started.limitLaw := fun _ => Nat.le_refl _
theorem started_descriptorLaw : started.descriptorLaw := by
  have absent : ∀ n, started.sq n = SqContext.reset := fun _ => rfl
  have idle : ∀ i, started.slot i = .idle := fun _ => rfl
  refine ⟨fun h => (nomatch h), fun _ => ⟨fun n => ?_, fun n h => rfl, fun n => ?_, fun i j n k m h => ?_, fun _ _ => rfl,
    fun _ _ => rfl, fun n h => absurd rfl h, fun c => ?_⟩⟩
  · rw [started_inUse]; rfl
  · simp [absent, idle, SqContext.reset]
  · rw [idle] at h; cases h
  · simp only [absent, SqContext.reset]; rfl
theorem started_completionRingLaw : started.completionRingLaw := fun _ h => nomatch h
theorem started_acrLaw : started.acrLaw := ⟨fun h => (nomatch h), .inl ⟨rfl, by decide, rfl, rfl⟩⟩
theorem witness_MemoryBacklogAndCreditKept :
    (∃ t, step started = .next t) ∧ started.memoryForm ∧ started.backlogLaw ∧ started.creditLaw :=
  ⟨⟨_, started_steps⟩, rfl, ⟨by decide, by decide⟩, started_creditLaw⟩
/-- Link 0 ACTIVE and busy; on the others no serializer is busy. -/
theorem sending_serializerLaw : (sending .active).serializerLaw := by
  intro l z h
  by_cases e : l = 0
  · subst e
    obtain rfl : someSerializer = z := Option.some.inj h
    exact .inl rfl
  · have : (sending .active).link l = LinkContext.reset := by simp [sending, e]; rfl
    rw [this] at h; cases h
theorem witness_FramePartsOnLiveLinks :
    (sending .active).serializerLaw ∧ ∃ t, step { sending .active with pending := [.cellSent 0 []] } = .next t :=
  ⟨sending_serializerLaw, _, rfl⟩
theorem witness_RecordLawKept : started.recordLaw ∧ ∃ t, step started = .next t := ⟨started_recordLaw, _, started_steps⟩
theorem witness_PoolLawKept : started.recordLaw ∧ started.poolLaw ∧ ∃ t, step started = .next t :=
  ⟨started_recordLaw, started_poolLaw, _, started_steps⟩
theorem witness_FlowQueueLawKept : started.recordLaw ∧ started.queueLaw ∧ ∃ t, step started = .next t :=
  ⟨started_recordLaw, started_queueLaw, _, started_steps⟩
theorem witness_DescriptorLawKept :
    started.limitLaw ∧ started.recordLaw ∧ started.descriptorLaw ∧ ∃ t, step started = .next t :=
  ⟨started_limitLaw, started_recordLaw, started_descriptorLaw, _, started_steps⟩
theorem witness_CompletionRingLawKept :
    started.recordLaw ∧ started.descriptorLaw ∧ started.completionRingLaw ∧ ∃ t, step started = .next t :=
  ⟨started_recordLaw, started_descriptorLaw, started_completionRingLaw, _, started_steps⟩
theorem witness_AcrLawKept : started.acrLaw ∧ ∃ t, step started = .next t := ⟨started_acrLaw, _, started_steps⟩
theorem witness_FailedDeviceStaysQuiet :
    (inState .failed live).hp.device = .failed ∧
    exec .commandReadError (inState .failed live) = .next (after .commandReadError (inState .failed live)) ∧
    (after .commandReadError (inState .failed live)).hp.device = .failed := ⟨rfl, rfl, by decide⟩
theorem witness_CommandFormatsRoundTrip :
    (Instr.deleteSq 0xABCD 31).wellFormed = true ∧ (encodeAdminCommand (.deleteSq 0xABCD 31)).isSome = true ∧
    (Instr.ready 0 0 1023 0 0).wellFormed = true ∧ (Instr.credit 3 3 1023).wellFormed = true ∧
    (encodePartnerMessage (.down 0 9)).isSome = true := by decide

end Sys2Proof.Tests
end

/-! The producer-index ports 0 to 31 (R41, R176): the write by device state, by ring state, then the obligation. -/

namespace Sys2Proof.Proofs.SubmissionRings

open Sys2Proof Sys2Proof.Machine Host

theorem exec_sqProducerIndexWrite (n : Fin 32) (v : Word32) (s : State) :
    exec (.sqProducerIndexWrite n v) s = .next (writeSqPort n v s) := rfl

/-- In RUNNING and STOPPED the HP hands the write on to the ring's context (R176). -/
theorem writeSqPort_of_taken (n : Nat) (v : Word32) {s : State}
    (taken : s.hp.device = .running ∨ s.hp.device = .stopped) : writeSqPort n v s = takeSqProducer n v s := by
  rcases taken with running | stopped
  · simp only [writeSqPort, running]
  · simp only [writeSqPort, stopped]

theorem takeSqProducer_of_present {n : Nat} {v : Word32} {s : State} (present : (s.sq n).state ≠ .absent)
    (below : v.toNat < (s.sq n).size) :
    takeSqProducer n v s = s.setSq n { s.sq n with producer := v.toNat } :=
  if_neg (not_or.mpr ⟨present, Nat.not_le.mpr below⟩)

theorem takeSqProducer_of_refused {n : Nat} {v : Word32} {s : State}
    (refused : (s.sq n).state = .absent ∨ (s.sq n).size ≤ v.toNat) :
    takeSqProducer n v s = raiseNotice (.indexError n v) s :=
  if_pos refused

/-- Settles O9: in RUNNING and STOPPED the write reaches the ring's context, which stores the value or refuses it. -/
theorem sqProducerIndexStored : Obligations.SqProducerIndexStored := by
  intro n v s taken
  rw [exec_sqProducerIndexWrite, writeSqPort_of_taken n v taken]
  constructor
  · intro present below
    rw [takeSqProducer_of_present present below]
  · intro refused
    rw [takeSqProducer_of_refused refused]

end Sys2Proof.Proofs.SubmissionRings

/-! The consumer-index ports 33 to 48 (R125, R176): the cyclic distance against the slots it counts, then the write by
device state and by ring context, then the obligation. -/

namespace Sys2Proof.Proofs.CompletionRings

open Sys2Proof Sys2Proof.Machine Host

/-- The distance from `c` to `v`, walked from `c`, ends at `v`. -/
theorem add_ringDistance_mod {size v c : Nat} (hv : v < size) (hc : c < size) :
    (c + ringDistance size v c) % size = v :=
  calc (c + (v + size - c) % size) % size
      = (c + (v + size - c)) % size := Nat.add_mod_mod ..
    _ = (v + size) % size := by rw [Nat.add_sub_cancel' (hc.le.trans (Nat.le_add_left ..))]
    _ = v := by rw [Nat.add_mod_right, Nat.mod_eq_of_lt hv]

/-- The slot `k` places past `c`, short of a full turn, is at distance `k`. -/
theorem ringDistance_add_mod {size c k : Nat} (hc : c < size) (hk : k < size) :
    ringDistance size ((c + k) % size) c = k :=
  calc ((c + k) % size + size - c) % size
      = ((c + k) % size + (size - c)) % size := by rw [Nat.add_sub_assoc hc.le]
    _ = (c + k + (size - c)) % size := Nat.mod_add_mod ..
    _ = (k + size) % size := by rw [show c + k + (size - c) = k + size by omega]
    _ = k := by rw [Nat.add_mod_right, Nat.mod_eq_of_lt hk]

/-- The model compares two distances; R125 reads this as the slots from the consumer index up to the tail. -/
theorem consumerInRange_iff {size t c v : Nat} (hc : c < size) (hv : v < size) :
    consumerInRange size t c v = true ↔ ∃ k ≤ ringDistance size t c, v = (c + k) % size := by
  rw [consumerInRange, decide_eq_true_iff]
  constructor
  · intro near
    exact ⟨ringDistance size v c, near, (add_ringDistance_mod hv hc).symm⟩
  · rintro ⟨k, near, rfl⟩
    have short : k < size := near.trans_lt (Nat.mod_lt _ (Nat.zero_lt_of_lt hc))
    rwa [ringDistance_add_mod hc short]

theorem exec_cqConsumerIndexWrite (n : Fin 16) (v : Word32) (s : State) :
    exec (.cqConsumerIndexWrite n v) s = .next (writeCqPort n v s) := rfl

/-- In RUNNING and STOPPED the HP hands the write on to the ring's context (R176). -/
theorem writeCqPort_of_taken (n : Nat) (v : Word32) {s : State}
    (taken : s.hp.device = .running ∨ s.hp.device = .stopped) : writeCqPort n v s = takeCqConsumer n v s := by
  rcases taken with running | stopped
  · simp only [writeCqPort, running]
  · simp only [writeCqPort, stopped]

theorem takeCqConsumer_of_refused {n : Nat} {v : Word32} {s : State}
    (refused : (s.cq n).state = .absent ∨ (s.cq n).size ≤ v.toNat) :
    takeCqConsumer n v s = raiseNotice (.indexError (33 + n) v) s :=
  if_pos refused

/-- On an ACTIVE ring a value below its size is decided by the cyclic range alone. -/
theorem takeCqConsumer_of_active {n : Nat} {v : Word32} {s : State} (active : (s.cq n).state = .active)
    (below : v.toNat < (s.cq n).size) :
    takeCqConsumer n v s = if consumerInRange (s.cq n).size (s.cq n).tail (s.cq n).consumer v.toNat
      then s.setCq n { s.cq n with consumer := v.toNat } else raiseNotice (.indexError (33 + n) v) s :=
  if_neg (not_or.mpr ⟨by simp [active], Nat.not_le.mpr below⟩)

/-- Settles O10: an ACTIVE ring's context tests the cyclic range, which is the slots from the consumer index to the
tail; an ABSENT ring, or a value past the ring's size, is refused before that test. -/
theorem cqConsumerIndexStored : Obligations.CqConsumerIndexStored := by
  intro n v s taken
  rw [exec_cqConsumerIndexWrite, writeCqPort_of_taken n v taken]
  constructor
  · intro active below consumerBelow _
    have range := consumerInRange_iff (t := (s.cq n).tail) consumerBelow below
    rw [takeCqConsumer_of_active active below]
    constructor
    · intro between
      rw [if_pos (range.mpr between)]
    · intro outside
      rw [if_neg (mt range.mp outside)]
  · intro refused
    rw [takeCqConsumer_of_refused refused]

end Sys2Proof.Proofs.CompletionRings

/-! The backlog (R167): what a merge does to it by the kinds it holds, then the obligation. -/

namespace Sys2Proof.Proofs.Backlog

open Sys2Proof Sys2Proof.Machine

/-- An entry after one more occurrence of its kind (R167). -/
def raised (e : BacklogEntry) : BacklogEntry :=
  { e with count := if e.count < 65535 then e.count + 1 else e.count }

@[simp] theorem raised_notice (e : BacklogEntry) : (raised e).notice = e.notice := rfl

theorem raised_count_bounds {e : BacklogEntry} (bounds : 1 ≤ e.count ∧ e.count ≤ 65535) :
    1 ≤ (raised e).count ∧ (raised e).count ≤ 65535 := by
  unfold raised
  split
  case isTrue below => exact ⟨Nat.le_add_left .., below⟩
  case isFalse => exact bounds

theorem mergeBacklog_cons_of_same {n : Notice} {x : BacklogEntry} (same : x.notice.kind = n.kind)
    (rest : List BacklogEntry) : mergeBacklog n (x :: rest) = raised x :: rest :=
  if_pos same

theorem mergeBacklog_cons_of_other {n : Notice} {x : BacklogEntry} (other : x.notice.kind ≠ n.kind)
    (rest : List BacklogEntry) : mergeBacklog n (x :: rest) = x :: mergeBacklog n rest :=
  if_neg other

theorem mergeBacklog_of_absent {n : Notice} {b : List BacklogEntry} (absent : ∀ e ∈ b, e.notice.kind ≠ n.kind) :
    mergeBacklog n b = b ++ [{ notice := n, count := 1 }] := by
  induction b with
  | nil => rfl
  | cons x rest ih =>
    obtain ⟨other, absentRest⟩ := List.forall_mem_cons.mp absent
    rw [mergeBacklog_cons_of_other other, ih absentRest, List.cons_append]

/-- The merge raises the first entry of the kind; with distinct kinds that is the only one, so it can be named. -/
theorem mergeBacklog_of_present {n : Notice} {b : List BacklogEntry} {e : BacklogEntry}
    (distinct : (b.map fun x => x.notice.kind).Nodup) (mem : e ∈ b) (same : e.notice.kind = n.kind) :
    mergeBacklog n b = b.map fun x => if x = e then raised e else x := by
  induction b with
  | nil => cases mem
  | cons x rest ih =>
    obtain ⟨fresh, distinctRest⟩ := List.nodup_cons.mp distinct
    have freshOf : ∀ y ∈ rest, y.notice.kind ≠ x.notice.kind := by
      intro y hy equal
      exact fresh (List.mem_map.mpr ⟨y, hy, equal⟩)
    rcases List.mem_cons.mp mem with rfl | memRest
    · have untouched : ∀ y ∈ rest, (if y = e then raised e else y) = y := by
        intro y hy
        exact if_neg fun equal => freshOf y hy (by rw [equal])
      rw [mergeBacklog_cons_of_same same, List.map_cons, if_pos rfl, List.map_congr_left untouched, List.map_id']
    · have other : x.notice.kind ≠ n.kind := fun equal => freshOf e memRest (same.trans equal.symm)
      have apart : x ≠ e := fun equal => freshOf e memRest (by rw [equal])
      rw [mergeBacklog_cons_of_other other, List.map_cons, if_neg apart, ih distinctRest memRest]

/-- A merge finds an entry of the notice's kind or none. -/
theorem present_or_absent (n : Notice) (b : List BacklogEntry) :
    (∃ e ∈ b, e.notice.kind = n.kind) ∨ ∀ e ∈ b, e.notice.kind ≠ n.kind := by
  by_cases present : ∃ e ∈ b, e.notice.kind = n.kind
  · exact .inl present
  · exact .inr fun e mem same => present ⟨e, mem, same⟩

theorem mergeBacklog_kinds_nodup (n : Notice) {b : List BacklogEntry}
    (distinct : (b.map fun e => e.notice.kind).Nodup) :
    ((mergeBacklog n b).map fun e => e.notice.kind).Nodup := by
  rcases present_or_absent n b with ⟨e, mem, same⟩ | absent
  · have kindKept : ∀ x ∈ b, (if x = e then raised e else x).notice.kind = x.notice.kind := by
      intro x _
      split
      case isTrue equal => rw [equal, raised_notice]
      case isFalse => rfl
    rw [mergeBacklog_of_present distinct mem same, List.map_map]
    exact (List.map_congr_left kindKept).symm ▸ distinct
  · have fresh : n.kind ∉ b.map fun e => e.notice.kind := by
      intro mem
      obtain ⟨e, mem, same⟩ := List.mem_map.mp mem
      exact absent e mem same
    rw [mergeBacklog_of_absent absent, List.map_append]
    exact List.nodup_append_comm.mp (List.nodup_cons.mpr ⟨fresh, distinct⟩)

theorem mergeBacklog_counts (n : Notice) {b : List BacklogEntry}
    (distinct : (b.map fun e => e.notice.kind).Nodup) (bounds : ∀ e ∈ b, 1 ≤ e.count ∧ e.count ≤ 65535) :
    ∀ e ∈ mergeBacklog n b, 1 ≤ e.count ∧ e.count ≤ 65535 := by
  rcases present_or_absent n b with ⟨e, mem, same⟩ | absent
  · rw [mergeBacklog_of_present distinct mem same, List.forall_mem_map]
    intro x hx
    split
    case isTrue => exact raised_count_bounds (bounds e mem)
    case isFalse => exact bounds x hx
  · rw [mergeBacklog_of_absent absent, List.forall_mem_append]
    exact ⟨bounds, List.forall_mem_singleton.mpr ⟨le_refl 1, by simp⟩⟩

theorem kind_mem_seven (n : Notice) : n.kind ∈ [1, 2, 3, 4, 5, 6, 7] := by
  cases n <;> simp [Notice.kind]

/-- A backlog of distinct kinds is no longer than the list of the kinds. -/
theorem length_le_seven {b : List BacklogEntry} (distinct : (b.map fun e => e.notice.kind).Nodup) : b.length ≤ 7 := by
  have among : (b.map fun e => e.notice.kind) ⊆ [1, 2, 3, 4, 5, 6, 7] := by
    intro k mem
    obtain ⟨e, -, rfl⟩ := List.mem_map.mp mem
    exact kind_mem_seven e.notice
  calc b.length = (b.map fun e => e.notice.kind).length := (List.length_map ..).symm
    _ ≤ 7 := (distinct.subperm among).length_le

/-- Settles O14: with distinct kinds a merge raises the one entry of the notice's kind or appends a first one, so the
kinds stay distinct, and seven kinds bound the length. -/
theorem backlogMergesByKind : Obligations.BacklogMergesByKind := by
  intro n b distinct
  have distinctAfter := mergeBacklog_kinds_nodup n distinct
  exact ⟨fun e mem same => mergeBacklog_of_present distinct mem same, mergeBacklog_of_absent, distinctAfter,
    length_le_seven distinctAfter, mergeBacklog_counts n distinct⟩

end Sys2Proof.Proofs.Backlog

/-! The NR consumer-index port 50 (R168, R176): what a drain keeps, the write by its value, then the obligation. -/

namespace Sys2Proof.Proofs.NoticeRing

open Sys2Proof Sys2Proof.Machine Host

@[simp] theorem signalVector0_ec (s : State) : (signalVector0 s).ec = s.ec := by
  unfold signalVector0
  split <;> rfl

@[simp] theorem writeNotice_nrConsumer (n : Notice) (count : Nat) (s : State) :
    (writeNotice n count s).ec.nrConsumer = s.ec.nrConsumer := by
  rw [writeNotice, signalVector0_ec]
  rfl

theorem drainEntries_nrConsumer (es : List BacklogEntry) (s : State) :
    (drainEntries es s).ec.nrConsumer = s.ec.nrConsumer := by
  induction es generalizing s with
  | nil => rfl
  | cons e rest ih =>
    unfold drainEntries
    split
    case isTrue => rw [ih, writeNotice_nrConsumer]
    case isFalse => rfl

@[simp] theorem drainBacklog_nrConsumer (s : State) : (drainBacklog s).ec.nrConsumer = s.ec.nrConsumer :=
  drainEntries_nrConsumer ..

theorem drainBacklog_of_empty {s : State} (empty : s.ec.backlog = []) : drainBacklog s = s := by
  rw [drainBacklog, empty, drainEntries, ← empty]
  rfl

theorem exec_nrConsumerIndexWrite (v : Word32) (s : State) :
    exec (.nrConsumerIndexWrite v) s = .next (writeNrPort v s) := rfl

/-- In RUNNING, FAILED and SELF_RESETTING the HP clears the latch and the EC takes the write (R168, R176). -/
theorem writeNrPort_of_taken (v : Word32) {s : State}
    (taken : s.hp.device = .running ∨ s.hp.device = .failed ∨ s.hp.device = .selfResetting) :
    writeNrPort v s =
      if s.hp.nrSize.toNat ≤ v.toNat then raiseNotice (.indexError 50 v) (clearLatch s)
      else if consumerInRange s.hp.nrSize.toNat s.ec.nrTail s.ec.nrConsumer v.toNat then
        drainBacklog ((clearLatch s).onEc fun b => { b with nrConsumer := v.toNat })
      else raiseNotice (.indexError 50 v) (clearLatch s) := by
  rcases taken with running | failed | selfResetting
  · simp only [writeNrPort, running]
    rfl
  · simp only [writeNrPort, failed]
    rfl
  · simp only [writeNrPort, selfResetting]
    rfl

/-- The model decides R168's range by the two distances from the consumer index. -/
theorem consumerInRange_iff_near {size tail consumer v : Nat} :
    consumerInRange size tail consumer v = true ↔
      (v + size - consumer) % size ≤ (tail + size - consumer) % size :=
  decide_eq_true_iff

theorem writeNrPort_of_accepted {v : Word32} {s : State}
    (taken : s.hp.device = .running ∨ s.hp.device = .failed ∨ s.hp.device = .selfResetting)
    (below : v.toNat < s.hp.nrSize.toNat)
    (inRange : consumerInRange s.hp.nrSize.toNat s.ec.nrTail s.ec.nrConsumer v.toNat = true) :
    writeNrPort v s = drainBacklog ((clearLatch s).onEc fun b => { b with nrConsumer := v.toNat }) := by
  rw [writeNrPort_of_taken v taken, if_neg (Nat.not_le.mpr below), if_pos inRange]

theorem writeNrPort_of_refused {v : Word32} {s : State}
    (taken : s.hp.device = .running ∨ s.hp.device = .failed ∨ s.hp.device = .selfResetting)
    (refused : s.hp.nrSize.toNat ≤ v.toNat ∨
      ¬ consumerInRange s.hp.nrSize.toNat s.ec.nrTail s.ec.nrConsumer v.toNat = true) :
    writeNrPort v s = raiseNotice (.indexError 50 v) (clearLatch s) := by
  rw [writeNrPort_of_taken v taken]
  rcases refused with tooLarge | outside
  · rw [if_pos tooLarge]
  · rw [if_neg outside, ite_self]

/-- Settles O12: the write clears the latch first; below the size the cyclic range decides, and a drain, which is
nothing for an empty backlog, keeps the stored index. -/
theorem nrConsumerIndexTaken : Obligations.NrConsumerIndexTaken := by
  intro v s taken
  rw [exec_nrConsumerIndexWrite]
  constructor
  · intro below near
    have accepted := writeNrPort_of_accepted taken below (consumerInRange_iff_near.mpr near)
    rw [accepted]
    refine ⟨⟨_, rfl, ?stored⟩, fun empty => ?nothingToDrain, rfl⟩
    case stored => exact drainBacklog_nrConsumer _
    case nothingToDrain => exact congrArg Outcome.next (drainBacklog_of_empty empty)
  · intro refused
    have outside := refused.imp_right (mt consumerInRange_iff_near.mp)
    exact congrArg Outcome.next (writeNrPort_of_refused taken outside)

end Sys2Proof.Proofs.NoticeRing

/-! What a step can do to the datapath. Every command is a chain of pieces, each of which keeps the laws of the part by
itself: the pieces, and a lemma per operation that says which pieces it is made of. The laws are proved of the pieces
(chapters 1, 2, 3 and 7), once for all sixty commands. -/

namespace Sys2Proof.Proofs.Datapath

open Sys2Proof Sys2Proof.Machine Host Sys2Proof.Proofs

/-! ### What the laws of the datapath read -/

/-- The BM but for its check bits and the fetch ends on their way, which no law reads. -/
def ledger (b : BmBlock) : BmBlock := { b with cellEcc := [], linkEcc := [], frameEcc := [], fetchEnds := [] }

@[simp] theorem ledger_cellEcc (b : BmBlock) (x : Table Ecc) : ledger { b with cellEcc := x } = ledger b := rfl
@[simp] theorem ledger_linkEcc (b : BmBlock) (x : Table Ecc) : ledger { b with linkEcc := x } = ledger b := rfl
@[simp] theorem ledger_frameEcc (b : BmBlock) (x : Table Ecc) : ledger { b with frameEcc := x } = ledger b := rfl
@[simp] theorem ledger_fetchEnds (b : BmBlock) (x : List (Nat × Bool)) : ledger { b with fetchEnds := x } = ledger b := rfl

/-- The rings and the records as a reset leaves them, which is how STOPPED keeps them. -/
def blank (s : State) : Prop := s.dfu = DfuBlock.reset ∧ s.cu = CuBlock.reset ∧ s.bm.frames = []

/-- The datapath reads the same in both states. -/
structure Alike (s t : State) : Prop where
  pending : t.pending = s.pending
  memory : s.memoryForm → t.memoryForm
  backlog : s.backlogLaw → t.backlogLaw
  blank : blank s → blank t
  freeHead : t.bm.freeHead = s.bm.freeHead
  freeTail : t.bm.freeTail = s.bm.freeTail
  freeCount : t.bm.freeCount = s.bm.freeCount
  freeRecords : t.bm.freeRecords = s.bm.freeRecords
  linkEntry : ∀ c, t.linkEntry c = s.linkEntry c
  frame : ∀ r, t.frame r = s.frame r
  flow : ∀ f, t.flow f = s.flow f
  sq : ∀ n, t.sq n = s.sq n
  slot : ∀ i, t.slot i = s.slot i
  cq : ∀ n, t.cq n = s.cq n

/-- The datapath reads the same, and the device is in the same state. -/
structure Quiet (s t : State) : Prop extends Alike s t where
  device : t.hp.device = s.hp.device

theorem Alike.refl (s : State) : Alike s s :=
  ⟨rfl, id, id, id, rfl, rfl, rfl, rfl, fun _ => rfl, fun _ => rfl, fun _ => rfl, fun _ => rfl, fun _ => rfl, fun _ => rfl⟩

theorem Alike.trans {s t u : State} (h : Alike s t) (g : Alike t u) : Alike s u where
  pending := g.pending.trans h.pending
  memory := g.memory ∘ h.memory
  backlog := g.backlog ∘ h.backlog
  blank := g.blank ∘ h.blank
  freeHead := g.freeHead.trans h.freeHead
  freeTail := g.freeTail.trans h.freeTail
  freeCount := g.freeCount.trans h.freeCount
  freeRecords := g.freeRecords.trans h.freeRecords
  linkEntry c := (g.linkEntry c).trans (h.linkEntry c)
  frame c := (g.frame c).trans (h.frame c)
  flow c := (g.flow c).trans (h.flow c)
  sq c := (g.sq c).trans (h.sq c)
  slot c := (g.slot c).trans (h.slot c)
  cq c := (g.cq c).trans (h.cq c)

theorem Quiet.refl (s : State) : Quiet s s := ⟨Alike.refl s, rfl⟩

theorem Quiet.trans {s t u : State} (h : Quiet s t) (g : Quiet t u) : Quiet s u :=
  ⟨h.toAlike.trans g.toAlike, g.device.trans h.device⟩

/-- The tables of the datapath are untouched, and the backlog is kept or changed within its law. -/
theorem Alike.of_blocks {s t : State} (backlog : s.backlogLaw → t.backlogLaw)
    (blocks : ledger t.bm = ledger s.bm ∧ t.dfu = s.dfu ∧ t.cu = s.cu ∧ t.pending = s.pending) : Alike s t := by
  obtain ⟨bm, dfu, cu, pending⟩ := blocks
  simp only [ledger, BmBlock.mk.injEq] at bm
  obtain ⟨cells, -, links, -, freeHead, freeTail, freeCount, frames, -, freeRecords, flows, -⟩ := bm
  exact
    { pending, backlog, freeHead, freeTail, freeCount, freeRecords
      memory := by simp [State.memoryForm, cells]
      blank := by simp [Datapath.blank, dfu, cu, frames]
      linkEntry := fun c => State.linkEntry_congr _ _ _ links
      frame := fun c => State.frame_congr _ _ _ frames
      flow := fun c => State.flow_congr _ _ _ flows
      sq := fun c => State.sq_congr _ _ _ (by rw [dfu])
      slot := fun c => State.slot_congr _ _ _ (by rw [dfu])
      cq := fun c => State.cq_congr _ _ _ (by rw [cu]) }

theorem Quiet.of_blocks {s t : State}
    (blocks : t.hp.device = s.hp.device ∧ t.ec.backlog = s.ec.backlog ∧ ledger t.bm = ledger s.bm ∧ t.dfu = s.dfu ∧
      t.cu = s.cu ∧ t.pending = s.pending) : Quiet s t :=
  ⟨.of_blocks (by simp [State.backlogLaw, blocks]) blocks.2.2, blocks.1⟩

/-! ### The pieces -/

/-- A record that stands in its flow's queue (R22). -/
def queued (f : FrameRecord) : Prop := f.state = .filling ∨ f.state = .ready ∨ f.state = .sending

/-- What of a record only its admission and its retirement change. -/
def sameFrame (f g : FrameRecord) : Prop :=
  g.ring = f.ring ∧ g.flow = f.flow ∧ g.cellCount = f.cellCount ∧ g.firstCell = f.firstCell ∧ g.lastCell = f.lastCell

/-- A record that stays in its queue, or out of it: its state stands, its last byte makes it READY (R14), or a grant makes
the head of a queue SENDING (R105). -/
def stays (s : State) (r : Nat) (g : FrameRecord) : Prop :=
  g.state = (s.frame r).state ∨ ((s.frame r).state = .filling ∧ g.state = .ready) ∨
    (((s.frame r).state = .filling ∨ (s.frame r).state = .ready) ∧ g.state = .sending ∧
      ∃ f, (s.flow f).queue.head? = some r)

/-- A flow's context changed beside its queue: its cells held stand, a cap is lowered only where none are held, and no
flow returns to UNCONFIGURED (R28 to R30). -/
def reconfigures (c d : FlowContext) : Prop :=
  d.queue = c.queue ∧ d.held = c.held ∧ (d.cap = c.cap ∨ c.held = 0 ∨ c.state = .unconfigured) ∧
    (d.state = .unconfigured → c.state = .unconfigured)

/-- A submission ring's context changed beside its counts. -/
def sameCounts (c d : SqContext) : Prop :=
  c.state ≠ .absent ∧ d.state ≠ .absent ∧ d.cq = c.cq ∧ d.limit = c.limit ∧ d.inFlight = c.inFlight ∧
    d.reading = c.reading ∧ d.held = c.held

/-- A completion ring's context changed beside its ledger. -/
def sameLedger (c d : CqContext) : Prop :=
  d.state = c.state ∧ d.size = c.size ∧ d.tail = c.tail ∧ d.consumer = c.consumer ∧ d.reserved = c.reserved

/-- One piece of a step, an admission apart. -/
inductive Piece : State → State → Prop
  /-- nothing the laws read -/
  | quiet {s t} : Quiet s t → Piece s t
  /-- a byte of the cell data memory -/
  | byte {s} (c o x) : Piece s (s.setCellByte c o x)
  /-- a record changed where it stands -/
  | record {s} (r g) : (s.frame r).state ≠ .free → sameFrame (s.frame r) g → stays s r g → Piece s (s.setFrame r g)
  /-- a record that leaves its queue and is kept until its fetch ends (R34, R113) -/
  | leave {s} (r g) : queued (s.frame r) → sameFrame (s.frame r) g → g.state = .closing ∨ g.state = .discarding →
      Piece s (leaveQueue r (s.setFrame r g))
  /-- a record that leaves its queue and retires (R115) -/
  | retireQueued {s} (r g) : s.hp.device = .running → queued (s.frame r) → sameFrame (s.frame r) g →
      Piece s (retireRecord r (leaveQueue r (s.setFrame r g)))
  /-- a record out of its queue that retires (R115) -/
  | retireApart {s} (r g) : s.hp.device = .running → (s.frame r).state = .closing ∨ (s.frame r).state = .discarding →
      sameFrame (s.frame r) g → Piece s (retireRecord r (s.setFrame r g))
  | flow {s} (n c) : reconfigures (s.flow n) c → Piece s (s.setFlow n c)
  /-- a new descriptor read (R48) -/
  | read {s} (i n) : s.hp.device = .running → s.slot i = .idle → mayRead s n = true → Piece s (grantRead i n s)
  /-- a descriptor read that ends without a record (R50, R51) -/
  | release {s} (i n k) : s.hp.device = .running → s.slot i = .descRead n k → Piece s (releaseRead i n s)
  /-- a descriptor read that ends with a completion (R53) -/
  | refuse {s} (i n k tag st sub) : s.hp.device = .running → s.slot i = .descRead n k → (s.sq n).state = .active →
      Piece s ((completeUnadmitted n tag st sub (takeHead n s)).setSlot i .idle)
  /-- a descriptor read that ends with the descriptor held (R55) -/
  | hold {s} (i n k h) : s.hp.device = .running → s.slot i = .descRead n k → (s.sq n).state = .active →
      1 ≤ h.descriptor.length → h.need = cellNeed h.descriptor.length →
      Piece s ((holdDescriptor n h (takeHead n s)).setSlot i .idle)
  /-- a held descriptor completed (R57, R58) -/
  | drop {s} (n h tag st sub) : s.hp.device = .running → (s.sq n).held = some h →
      Piece s (completeUnadmitted n tag st sub (clearHeld n s))
  /-- a fetch slot beside descriptor reads -/
  | slot {s} (i x) : s.hp.device = .running → (∀ n k, s.slot i ≠ .descRead n k) → (∀ n k, x ≠ .descRead n k) →
      Piece s (s.setSlot i x)
  /-- a read's outcome discarded (R65) -/
  | discard {s} (i) : s.hp.device ≠ .running → Piece s (s.setSlot i .idle)
  | ring {s} (n c) : sameCounts (s.sq n) c → Piece s (s.setSq n c)
  | createRing {s} (n c) : s.hp.device = .running → n < 32 → (s.sq n).state = .absent → c.inFlight = 0 →
      c.reading = false → c.held = none → c.state ≠ .absent → (s.cq c.cq).state = .active → Piece s (s.setSq n c)
  | removeRing {s} (n) : s.hp.device = .running → (s.sq n).state = .deleting → (s.sq n).inFlight = 0 →
      Piece s (s.setSq n SqContext.reset)
  | completions {s} (n c) : s.hp.device ≠ .stopped → sameLedger (s.cq n) c → Piece s (s.setCq n c)
  /-- a consumer index taken (R125) -/
  | consume {s} (n v) : (s.cq n).state ≠ .absent → v < (s.cq n).size →
      consumerInRange (s.cq n).size (s.cq n).tail (s.cq n).consumer v = true →
      Piece s (s.setCq n { s.cq n with consumer := v })
  | createCompletions {s} (n c) : s.hp.device = .running → (s.cq n).state = .absent → c.state = .active → 0 < c.size →
      c.tail = 0 → c.consumer = 0 → c.reserved = 0 → Piece s (s.setCq n c)
  | removeCompletions {s} (n) : s.hp.device = .running → cqBound s n = false → Piece s (s.setCq n CqContext.reset)
  /-- a device that begins to run does so from reset rings and records (R173, R162) -/
  | start {s t} : s.hp.device = .stopped ∨ blank s → Alike s t → Piece s t
  | halt {s t} : Alike s t → t.hp.device ≠ .running → t.hp.device ≠ .stopped → Piece s t
  /-- a reset (R162, R174) -/
  | clear {s t} : t.bm = BmBlock.reset → t.dfu = DfuBlock.reset → t.cu = CuBlock.reset → t.pending = s.pending →
      (s.backlogLaw → t.backlogLaw) → Piece s t

/-- A frame admitted, from a descriptor read or from the held descriptors (R13). -/
inductive Admits : State → State → Prop
  | fresh {s} (i n k d gs r) : s.hp.device = .running → s.slot i = .descRead n k → (s.sq n).state = .active →
      1 ≤ d.length → (s.flow d.flow).state = .enabled →
      (s.flow d.flow).held + cellNeed d.length ≤ (s.flow d.flow).cap → cellNeed d.length ≤ s.bm.freeCount →
      s.bm.freeRecords.head? = some r →
      Admits s ((takeHead n (admitRecord n d (cellNeed d.length) r s)).setSlot i (.payload n r gs 0 0))
  | retried {s} (i n h gs r) : s.hp.device = .running → s.slot i = .idle → (s.sq n).held = some h →
      (s.flow h.descriptor.flow).state = .enabled →
      (s.flow h.descriptor.flow).held + h.need ≤ (s.flow h.descriptor.flow).cap → h.need ≤ s.bm.freeCount →
      s.bm.freeRecords.head? = some r →
      Admits s ((clearHeld n (admitRecord n h.descriptor h.need r s)).setSlot i (.payload n r gs 0 0))

/-- A chain of pieces. -/
def Pieces : State → State → Prop := Relation.ReflTransGen Piece

/-- A whole step: a chain of pieces, with at most one admission, before which nothing changes. -/
def Made (s t : State) : Prop := Pieces s t ∨ ∃ u v, Quiet s u ∧ Admits u v ∧ Pieces v t

theorem Pieces.refl (s : State) : Pieces s s := Relation.ReflTransGen.refl
theorem Pieces.trans {s t u : State} (h : Pieces s t) (g : Pieces t u) : Pieces s u := Relation.ReflTransGen.trans h g
theorem Piece.pieces {s t : State} (h : Piece s t) : Pieces s t := .single h
theorem Quiet.pieces {s t : State} (h : Quiet s t) : Pieces s t := .single (.quiet h)
theorem Pieces.made {s t : State} (h : Pieces s t) : Made s t := .inl h

theorem Made.after_quiet {s t u : State} (h : Quiet s t) (g : Made t u) : Made s u := by
  rcases g with pieces | ⟨a, b, before, admits, after⟩
  · exact .inl (h.pieces.trans pieces)
  · exact .inr ⟨a, b, h.trans before, admits, after⟩

theorem Made.trans_pieces {s t u : State} (h : Made s t) (g : Pieces t u) : Made s u := by
  rcases h with pieces | ⟨a, b, before, admits, after⟩
  · exact .inl (pieces.trans g)
  · exact .inr ⟨a, b, before, admits, after.trans g⟩

theorem Pieces.foldl {α : Type} {f : State → α → State} (each : ∀ s a, Pieces s (f s a)) (as : List α) (s : State) :
    Pieces s (as.foldl f s) := by
  induction as generalizing s with
  | nil => exact .refl s
  | cons a as ih => exact (each s a).trans (ih _)

theorem Quiet.foldl {α : Type} {f : State → α → State} (each : ∀ s a, Quiet s (f s a)) (as : List α) (s : State) :
    Quiet s (as.foldl f s) := by
  induction as generalizing s with
  | nil => exact .refl s
  | cons a as ih => exact (each s a).trans (ih _)

end Sys2Proof.Proofs.Datapath

/-! Which pieces each operation of the model is made of, in the order of the model's files. -/

namespace Sys2Proof.Proofs.Datapath

open Sys2Proof Sys2Proof.Machine Host Sys2Proof.Proofs

theorem emit_quiet (x : HostTraffic) (s : State) : Quiet s (s.emit x) := .of_blocks (by simp)
theorem send_quiet (l : Nat) (m : LinkMessage) (s : State) : Quiet s (s.send l m) := .of_blocks (by simp)

/-! ### Notices -/

theorem signalVector0_quiet (s : State) : Quiet s (signalVector0 s) := .of_blocks (by simp)

theorem writeNotice_backlog (n : Notice) (k : Nat) (s : State) : (writeNotice n k s).ec.backlog = s.ec.backlog := by
  simp [writeNotice]

theorem raiseNotice_alike (n : Notice) (s : State) : Alike s (raiseNotice n s) := by
  refine .of_blocks (fun law => ?_) (by simp)
  have merged : ((postponeNotice n s)).backlogLaw :=
    ⟨Backlog.mergeBacklog_kinds_nodup n law.1, Backlog.mergeBacklog_counts n law.1 law.2⟩
  have written : (writeNotice n 1 s).backlogLaw := by simpa [State.backlogLaw, writeNotice_backlog] using law
  unfold raiseNotice
  split
  case h_1 => exact law
  case h_2 => exact merged
  all_goals
    split
    · exact written
    · exact merged

theorem raiseNotice_quiet (n : Notice) (s : State) : Quiet s (raiseNotice n s) := ⟨raiseNotice_alike n s, by simp⟩

theorem drainEntries_suffix (es : List BacklogEntry) (s : State) : (drainEntries es s).ec.backlog <:+ es := by
  induction es generalizing s with
  | nil => exact List.suffix_refl _
  | cons e rest ih =>
    unfold drainEntries
    split
    · exact (ih _).trans (List.suffix_cons e rest)
    · exact List.suffix_refl _

theorem drainBacklog_quiet (s : State) : Quiet s (drainBacklog s) := by
  have suffix : (drainBacklog s).ec.backlog <:+ s.ec.backlog := drainEntries_suffix _ s
  refine ⟨.of_blocks (fun law => ?_) (by simp), by simp⟩
  exact ⟨law.1.sublist (suffix.sublist.map _), fun e he => law.2 e (suffix.subset he)⟩

/-! ### Host reads and the admin rings -/

theorem startCommandRead_quiet (s : State) : Quiet s (startCommandRead s) := .of_blocks (by simp)
theorem adminComplete_quiet (tag : BitVec 16) (k : Nat) (st : AdminStatus) (x : Nat) (s : State) :
    Quiet s (adminComplete tag k st x s) := .of_blocks (by simp)
theorem endLong_quiet (op : LongOperation) (st : AdminStatus) (x : Nat) (s : State) : Quiet s (endLong op st x s) :=
  .of_blocks (by simp)
theorem appendOutstanding_quiet (op : LongOperation) (tag : BitVec 16) (s : State) :
    Quiet s (appendOutstanding op tag s) := .of_blocks (by simp)
theorem freeRead_quiet (i : Nat) (s : State) : Quiet s (freeRead i s) := .of_blocks (by simp)
theorem issueRead_quiet (i a n : Nat) (s : State) : Quiet s (issueRead i a n s) := .of_blocks (by simp)

theorem issuePayload_quiet (i : Nat) (g : Segment) (o : Nat) (s : State) : Quiet s (issuePayload i g o s) :=
  .of_blocks (by simp)

/-! ### The checks of the protected memories -/

theorem sendReport_quiet (r : EccReport) (s : State) : Quiet s (sendReport r s) := .of_blocks (by simp [sendReport])

theorem strikeOne_quiet (x : Upset) (s : State) : Quiet s (strikeOne s x) := by
  cases x <;> exact .of_blocks (by simp [strikeOne])

theorem strike_quiet (us : List Upset) (s : State) : Quiet s (strike us s) :=
  Quiet.foldl (fun s x => strikeOne_quiet x s) us s

theorem checkRecord_quiet (r : Nat) (s : State) : Quiet s (checkRecord r s).2 := by
  unfold checkRecord
  split
  case h_1 => exact .refl s
  case h_2 => exact .of_blocks (by simp [sendReport])
  case h_3 => exact sendReport_quiet _ s

theorem checkLink_quiet (c : Nat) (s : State) : Quiet s (checkLink c s).2 := by
  unfold checkLink
  split
  case h_1 => exact .refl s
  case h_2 => exact .of_blocks (by simp [sendReport])
  case h_3 => exact sendReport_quiet _ s

/-- A check's state, named by the match on its answer. -/
theorem Quiet.of_answer {β : Type} {s s1 : State} {b : β} {a : β × State} (quiet : Quiet s a.2) (answer : a = (b, s1)) :
    Quiet s s1 := by
  rwa [answer] at quiet

theorem checkLinks_quiet (cs : List Nat) (s : State) : Quiet s (checkLinks cs s).2 := by
  induction cs generalizing s with
  | nil => exact .refl s
  | cons c cs ih =>
    unfold checkLinks
    split
    case h_1 s1 answer => exact ((checkLink_quiet c s).of_answer answer).trans (ih s1)
    case h_2 s1 answer => exact (checkLink_quiet c s).of_answer answer

theorem checkRecords_quiet (rs : List Nat) (s : State) : Quiet s (checkRecords rs s).2 := by
  induction rs generalizing s with
  | nil => exact .refl s
  | cons r rs ih =>
    unfold checkRecords
    split
    case h_1 s1 answer => exact ((checkRecord_quiet r s).of_answer answer).trans (ih s1)
    case h_2 s1 answer => exact (checkRecord_quiet r s).of_answer answer

theorem readHeads_quiet (rs : List Nat) (s : State) : Quiet s (readHeads rs s).2 := by
  induction rs generalizing s with
  | nil => exact .refl s
  | cons r rs ih =>
    unfold readHeads
    split
    · exact ih s
    · split
      case h_1 s1 answer => exact ((checkRecord_quiet r s).of_answer answer).trans (ih s1)
      case h_2 s1 answer =>
        exact ((checkRecord_quiet r s).of_answer answer).trans (.of_blocks (by simp))

theorem checkCell_quiet (c n : Nat) (s : State) : Quiet s (checkCell c n s).2 := .of_blocks (by simp [checkCell])

/-! ### Rings -/

theorem endDeletion_pieces (n : Nat) {s : State} (run : s.hp.device = .running) : Pieces s (endDeletion n s) := by
  unfold endDeletion
  split
  case isTrue due => exact (Piece.removeRing n run due.1 due.2).pieces.trans (endLong_quiet ..).pieces
  case isFalse => exact .refl s

/-- The marks of held descriptors are no matter of the laws. -/
theorem heldMap_quiet (f : HeldEntry → HeldEntry) (s : State) :
    Quiet s (s.onDfu fun b => { b with held := b.held.map f }) where
  pending := rfl
  memory := id
  backlog := id
  blank := fun ⟨dfu, cu, frames⟩ => ⟨by simp [dfu, DfuBlock.reset], cu, frames⟩
  freeHead := rfl
  freeTail := rfl
  freeCount := rfl
  freeRecords := rfl
  linkEntry _ := rfl
  frame _ := rfl
  flow _ := rfl
  sq _ := rfl
  slot _ := rfl
  cq _ := rfl
  device := rfl

theorem markFlowReady_quiet (f : Nat) (s : State) : Quiet s (markFlowReady f s) := heldMap_quiet _ s

/-- A held descriptor that becomes held again leaves its ring's context as it was. -/
theorem holdAgain_quiet {n : Nat} {h : HeldCopy} {s : State} (held : (s.sq n).held = some h) :
    Quiet s (holdDescriptor n h (clearHeld n s)) where
  pending := by simp
  memory := by simp [State.memoryForm]
  backlog := by simp [State.backlogLaw]
  blank := fun ⟨dfu, _, _⟩ => by simp [State.sq, dfu, DfuBlock.reset, tableGet, sqUnlisted, SqContext.reset] at held
  freeHead := by simp
  freeTail := by simp
  freeCount := by simp
  freeRecords := by simp
  linkEntry _ := rfl
  frame _ := rfl
  flow _ := rfl
  sq m := by
    show ((s.setSq n _).setSq n _).sq m = s.sq m
    by_cases same : m = n
    · subst same
      simp [clearHeld, State.sq, ← held]
    · simp [clearHeld, State.sq, same]
  slot _ := rfl
  cq _ := rfl
  device := by simp

/-! ### Queues and retirement -/

theorem endFlush_pieces (f : Nat) (s : State) : Pieces s (endFlush f s) := by
  unfold endFlush
  split
  case isTrue due =>
    refine .trans (Piece.pieces (.flow f _ ?_)) (endLong_quiet ..).pieces
    exact ⟨rfl, rfl, .inl rfl, by simp⟩
  case isFalse => exact .refl s

theorem retire_pieces {s u : State} (r : Nat) (run : u.hp.device = .running) (record : Pieces s (retireRecord r u)) :
    Pieces s (retire r u) :=
  (record.trans (endFlush_pieces _ _)).trans (endDeletion_pieces _ (by simpa using run))

theorem sameFrame_self (f : FrameRecord) : sameFrame f f := ⟨rfl, rfl, rfl, rfl, rfl⟩

theorem takeLinkEnd_pieces (r : Nat) (cause : Option FrameCause) {s : State} (run : s.hp.device = .running) :
    Pieces s (takeLinkEnd r cause s) := by
  unfold takeLinkEnd
  dsimp only
  split
  case isTrue sending =>
    have inQueue : queued (s.frame r) := .inr (.inr sending)
    split
    case isTrue =>
      exact retire_pieces r (by simpa using run) (Piece.pieces (.retireQueued r _ run inQueue ⟨rfl, rfl, rfl, rfl, rfl⟩))
    case isFalse => exact Piece.pieces (.leave r _ inQueue ⟨rfl, rfl, rfl, rfl, rfl⟩ (.inl (by simp)))
  case isFalse => exact .refl s

/-! ### Links and the scheduler -/

theorem setSerializer_quiet (l : Nat) (z : Option Serializer) (s : State) : Quiet s (setSerializer l z s) :=
  .of_blocks (by simp)
theorem stopSerializer_quiet (l : Nat) (s : State) : Quiet s (stopSerializer l s) := .of_blocks (by simp)
theorem clearCredit_quiet (l : Nat) (x : LinkState) (s : State) : Quiet s (clearCredit l x s) := .of_blocks (by simp)
theorem endLinkCommand_quiet (l : Nat) (st : AdminStatus) (s : State) : Quiet s (endLinkCommand l st s) :=
  .of_blocks (by simp)
theorem applyActivation_quiet (l : Nat) (s : State) : Quiet s (applyActivation l s) := .of_blocks (by simp)
theorem applyAtDeparture_quiet (l : Nat) (s : State) : Quiet s (applyAtDeparture l s) := .of_blocks (by simp)
theorem endDrain_quiet (l : Nat) (s : State) : Quiet s (endDrain l s) := .of_blocks (by simp)

theorem abortFrame_pieces (l : Nat) (cause : FrameCause) {s : State} (run : s.hp.device = .running) :
    Pieces s (abortFrame l cause s) := by
  unfold abortFrame
  split
  case h_1 => exact .refl s
  case h_2 z _ =>
    exact (Quiet.of_blocks (by simp)).pieces.trans (takeLinkEnd_pieces z.record (some cause) (by simpa using run))

theorem goodFrame_pieces (l : Nat) {s : State} (run : s.hp.device = .running) : Pieces s (goodFrame l s) := by
  unfold goodFrame
  split
  case h_1 => exact .refl s
  case h_2 z _ =>
    exact (Quiet.of_blocks (by simp)).pieces.trans (takeLinkEnd_pieces z.record none (by simpa using run))

theorem beginCell_pieces (l : Nat) {s : State} (run : s.hp.device = .running) : Pieces s (beginCell l s) := by
  unfold beginCell
  split
  case h_1 => exact .refl s
  case h_2 z _ =>
    have checked := checkCell_quiet z.nextCell (cellLength (s.frame z.record) z.sent) s
    split
    case h_1 s1 answer => exact ((checked.of_answer answer).trans (setSerializer_quiet ..)).pieces
    case h_2 s1 answer =>
      have quiet := checked.of_answer answer
      exact (quiet.trans (sendReport_quiet ..)).pieces.trans (abortFrame_pieces l _ (by simpa [quiet.device] using run))

theorem eligible_head {s : State} {l f : Nat} (may : eligible s l f = true) :
    ∃ r rest, (s.flow f).queue = r :: rest ∧ ((s.frame r).state = .filling ∨ (s.frame r).state = .ready) := by
  simp only [eligible, Bool.and_eq_true] at may
  obtain ⟨_, head⟩ := may
  cases queue : (s.flow f).queue with
  | nil => simp [queue] at head
  | cons r rest =>
    simp only [queue, Bool.and_eq_true] at head
    refine ⟨r, rest, rfl, ?_⟩
    have filled := head.1.1
    simp only [headFilled, Bool.or_eq_true, Bool.and_eq_true, decide_eq_true_eq] at filled
    rcases filled with ready | ⟨⟨filling, _⟩, _⟩
    · exact .inr ready
    · exact .inl filling

theorem grantHead_pieces {l f r : Nat} {s : State} (run : s.hp.device = .running)
    (head : (s.flow f).queue.head? = some r) (grantable : (s.frame r).state = .filling ∨ (s.frame r).state = .ready) :
    Pieces s (grantHead l f r s) := by
  unfold grantHead
  dsimp only
  have used : (s.frame r).state ≠ .free := by rcases grantable with h | h <;> simp [h]
  have credit : Pieces s (s.setAvailable l (laneOf s l f) (s.available l (laneOf s l f) - (s.frame r).cellCount)) :=
    (Quiet.of_blocks (by simp)).pieces
  refine .trans (.trans (.trans (.trans credit (Piece.pieces (.record r _ ?used ?same ?state)))
    (setSerializer_quiet ..).pieces) (send_quiet ..).pieces) (beginCell_pieces l ?run)
  case used => simpa using used
  case same => exact ⟨rfl, rfl, rfl, rfl, rfl⟩
  case state => exact .inr (.inr ⟨by simpa using grantable, rfl, f, by simpa using head⟩)
  case run => simpa using run

theorem award_pieces {l f : Nat} {s : State} (pointers : Scheduler → Scheduler) (run : s.hp.device = .running)
    (may : eligible s l f = true) : Pieces s (award l f pointers s).2 := by
  obtain ⟨r, rest, queue, grantable⟩ := eligible_head may
  unfold award
  rw [queue]
  have pointed : Quiet s (s.setSched l (pointers (s.sched l))) := .of_blocks (by simp)
  exact pointed.pieces.trans (grantHead_pieces run (by simp [queue]) (by simpa using grantable))

theorem calendarWinner_eligible {s : State} {l p f : Nat} {ps : List Nat} (wins : calendarWinner s l ps = some (p, f)) :
    eligible s l f = true := by
  induction ps with
  | nil => simp [calendarWinner] at wins
  | cons q ps ih =>
    unfold calendarWinner at wins
    split at wins
    · exact ih wins
    · split at wins
      case isTrue may =>
        obtain ⟨rfl, rfl⟩ := by simpa using wins
        exact may
      case isFalse => exact ih wins

theorem expeditedWinner_eligible {s : State} {l f : Nat} (wins : expeditedWinner s l = some f) :
    eligible s l f = true := by
  have found := List.find?_some wins
  simp only [Bool.and_eq_true] at found
  exact found.2

theorem calendarWrap_pieces (l : Nat) {s : State} (run : s.hp.device = .running) : Pieces s (calendarWrap l s).2 := by
  unfold calendarWrap
  split
  case isTrue =>
    refine (applyActivation_quiet l s).pieces.trans ?_
    dsimp only
    split
    case h_1 p f wins => exact award_pieces _ (by simpa using run) (calendarWinner_eligible wins)
    case h_2 => exact .refl _
  case isFalse =>
    dsimp only
    split
    case h_1 p f wins => exact award_pieces _ run (calendarWinner_eligible wins)
    case h_2 => exact .refl _

theorem calendarTier_pieces (l : Nat) {s : State} (run : s.hp.device = .running) : Pieces s (calendarTier l s).2 := by
  unfold calendarTier
  dsimp only
  split
  case h_1 p f wins => exact award_pieces _ run (calendarWinner_eligible wins)
  case h_2 => exact calendarWrap_pieces l run

theorem arbitrate_pieces (l : Nat) {s : State} (run : s.hp.device = .running) : Pieces s (arbitrate l s).2 := by
  unfold arbitrate
  split
  case h_1 f wins => exact award_pieces _ run (expeditedWinner_eligible wins)
  case h_2 => exact calendarTier_pieces l run

theorem considerTimes_pieces (k l : Nat) (s : State) : Pieces s (considerTimes k l s) := by
  induction k generalizing s with
  | zero => exact .refl s
  | succ k ih =>
    unfold considerTimes
    split
    case isFalse => exact .refl s
    case isTrue guard =>
      split
      · split
        · exact (applyActivation_quiet l s).pieces
        · exact .refl s
      · split
        case h_1 s1 answer => exact ((readHeads_quiet _ s).of_answer answer).pieces
        case h_2 s1 answer =>
          have read := (readHeads_quiet _ s).of_answer answer
          refine read.pieces.trans ?_
          have arbitrated := arbitrate_pieces l (s := s1) (read.device.trans guard.1)
          split
          case isFalse => exact .refl s1
          case isTrue =>
            split
            case h_1 s2 made =>
              rw [made] at arbitrated
              split
              · exact arbitrated.trans (ih s2)
              · exact arbitrated
            case h_2 s2 made =>
              rw [made] at arbitrated
              exact arbitrated

theorem consider_pieces (l : Nat) (s : State) : Pieces s (consider l s) := considerTimes_pieces _ l s

theorem afterLinkEnd_pieces (l : Nat) (s : State) : Pieces s (afterLinkEnd l s) := by
  unfold afterLinkEnd
  split
  case h_1 => exact (endDrain_quiet l s).pieces
  case h_2 => exact consider_pieces l s
  all_goals exact .refl s

theorem loseFrame_pieces (l : Nat) {s : State} (run : s.hp.device = .running) : Pieces s (loseFrame l s) := by
  unfold loseFrame
  split
  case h_1 => exact .refl s
  case h_2 z _ =>
    split
    · exact (setSerializer_quiet ..).pieces
    · exact (setSerializer_quiet ..).pieces.trans (takeLinkEnd_pieces _ _ (by simpa using run))

theorem checkSending_quiet (l : Nat) (s : State) : Quiet s (checkSending l s).2 := by
  unfold checkSending
  split
  case h_1 => exact .refl s
  case h_2 z _ =>
    split
    · exact .refl s
    · split
      case h_1 s1 answer => exact (checkRecord_quiet z.record s).of_answer answer
      case h_2 s1 answer => exact ((checkRecord_quiet z.record s).of_answer answer).trans (stopSerializer_quiet l s1)

theorem failLink_pieces (l : Nat) (cause : LinkCause) {s : State} (run : s.hp.device = .running) :
    Pieces s (failLink l cause s) := by
  refine (loseFrame_pieces l run).trans ?_
  unfold failLink
  dsimp only
  have failed : Quiet (loseFrame l s) ((clearCredit l .failed (loseFrame l s)).setLink l
      { (clearCredit l .failed (loseFrame l s)).link l with cause := some cause }) := .of_blocks (by simp)
  have told : ∀ u, Quiet u (raiseNotice (.linkFailed l cause) (if cause = .partnerDown then u else u.send l (.down l))) := by
    intro u
    have sent : Quiet u (if cause = .partnerDown then u else u.send l (.down l)) := by
      split
      · exact .refl u
      · exact .of_blocks (by simp)
    exact sent.trans (raiseNotice_quiet ..)
  have ended : ∀ u, Quiet u (if (s.link l).state = .draining then
      endLinkCommand l .ok (u.setLink l { u.link l with state := .disabled }) else applyAtDeparture l u) := by
    intro u
    split
    · exact .of_blocks (by simp)
    · exact applyAtDeparture_quiet ..
  exact ((failed.trans (told _)).trans (ended _)).pieces

theorem failLinkEvent_pieces (l : Nat) (cause : LinkCause) {s : State} (run : s.hp.device = .running) :
    Pieces s (failLinkEvent l cause s) := by
  unfold failLinkEvent
  split
  case h_1 s1 answer =>
    have quiet := (checkSending_quiet l s).of_answer answer
    exact quiet.pieces.trans (failLink_pieces l cause (quiet.device.trans run))
  case h_2 s1 answer => exact ((checkSending_quiet l s).of_answer answer).pieces

theorem protocolError_pieces (l : Nat) (s : State) : Pieces s (protocolError l s) := by
  unfold protocolError
  split
  case isTrue guard => exact failLinkEvent_pieces l _ guard.1
  case isFalse => exact .refl s

theorem countSent_pieces (r : Nat) (s : State) : Pieces s (countSent r s) := by
  unfold countSent
  dsimp only
  split
  case isTrue sending =>
    exact Piece.pieces (.record r _ (by simp [sending]) ⟨rfl, rfl, rfl, rfl, rfl⟩ (.inl rfl))
  case isFalse => exact .refl s

theorem nextCell_pieces (l : Nat) (z : Serializer) {s : State} (run : s.hp.device = .running) :
    Pieces s (nextCell l z s) := by
  unfold nextCell
  dsimp only
  split
  · have begun := (setSerializer_quiet l (some { z with
        sent := z.sent + 1, nextCell := (s.linkEntry z.nextCell).getD z.nextCell }) s).pieces.trans
      (beginCell_pieces l (by simpa using run))
    split
    · exact begun.trans (afterLinkEnd_pieces ..)
    · exact begun
  · exact (setSerializer_quiet ..).pieces

theorem endCell_pieces (l : Nat) (z : Serializer) {s : State} (run : s.hp.device = .running) :
    Pieces s (endCell l z s) := by
  unfold endCell
  dsimp only
  have sent : Quiet s (s.send l (.cell (cellPayload s z.nextCell (cellLength (s.frame z.record) z.sent)))) :=
    .of_blocks (by simp)
  split
  case h_1 s1 answer =>
    exact (sent.trans (((checkRecord_quiet z.record _).of_answer answer).trans (stopSerializer_quiet l s1))).pieces
  case h_2 s1 answer =>
    have checked := sent.trans ((checkRecord_quiet z.record _).of_answer answer)
    have linked : Quiet s1 (if z.sent + 1 = z.cellCount then (true, s1) else checkLink z.nextCell s1).2 := by
      split
      · exact .refl s1
      · exact checkLink_quiet ..
    split
    case h_1 s2 answer => exact ((checked.trans (linked.of_answer answer)).trans (stopSerializer_quiet l s2)).pieces
    case h_2 s2 answer =>
      have before := checked.trans (linked.of_answer answer)
      have run2 : s2.hp.device = .running := before.device.trans run
      refine (before.pieces.trans (countSent_pieces z.record s2)).trans ?_
      split
      · refine ((setSerializer_quiet ..).pieces.trans (goodFrame_pieces l ?_)).trans (afterLinkEnd_pieces ..)
        simpa using run2
      · exact nextCell_pieces l z (by simpa using run2)

theorem takeFillReport_pieces (l r k : Nat) {s : State} (run : s.hp.device = .running) :
    Pieces s (takeFillReport l r k s) := by
  unfold takeFillReport
  split
  case h_1 => exact .refl s
  case h_2 z _ =>
    split
    · dsimp only
      split
      · exact (setSerializer_quiet ..).pieces.trans (beginCell_pieces l (by simpa using run))
      · exact (setSerializer_quiet ..).pieces
    · exact .refl s

theorem abortEvent_pieces (l : Nat) (cause : FrameCause) {s : State} (run : s.hp.device = .running) :
    Pieces s (abortEvent l cause s) := by
  unfold abortEvent
  split
  case h_1 s1 answer =>
    have quiet := (checkSending_quiet l s).of_answer answer
    exact quiet.pieces.trans ((abortFrame_pieces l cause (quiet.device.trans run)).trans (afterLinkEnd_pieces ..))
  case h_2 s1 answer => exact ((checkSending_quiet l s).of_answer answer).pieces

end Sys2Proof.Proofs.Datapath

/-! Which pieces a step is made of, continued: the device states, the ports, the fetch path and the admin commands, and
then the sixty commands. -/

namespace Sys2Proof.Proofs.Datapath

open Sys2Proof Sys2Proof.Machine Host Sys2Proof.Proofs

/-! ### Fill -/

theorem fillByte_made (r : Nat) (x : Byte) {s : State} (used : (s.frame r).state ≠ .free) :
    Pieces s (fillByte r x s).2 ∧ ((fillByte r x s).2.frame r).state ≠ .free := by
  have byte : Pieces s (s.setCellByte (s.frame r).fillCell (s.frame r).fillOffset x) := (Piece.byte ..).pieces
  have record : ∀ {u : State} (g : FrameRecord), Pieces s u → u.frame r = s.frame r ∨ (u.frame r).state = (s.frame r).state ∧
      sameFrame (s.frame r) (u.frame r) → sameFrame (s.frame r) g →
      (g.state = (s.frame r).state ∨ ((s.frame r).state = .filling ∧ g.state = .ready)) →
      Pieces s (u.setFrame r g) ∧ ((u.setFrame r g).frame r).state ≠ .free := by
    intro u g before at_ same state
    have stateU : (u.frame r).state = (s.frame r).state := by rcases at_ with h | h <;> simp [h]
    have sameU : sameFrame (u.frame r) g := by
      rcases at_ with h | ⟨_, h⟩
      · rwa [h]
      · simp_all [sameFrame]
    refine ⟨before.trans (Piece.pieces (.record r g (by rwa [stateU]) sameU ?_)), ?_⟩
    · rcases state with h | h
      · exact .inl (h.trans stateU.symm)
      · exact .inr (.inl (by rwa [stateU]))
    · rcases state with h | h <;> simp [h, used]
  unfold fillByte
  dsimp only
  split
  · exact record _ byte (.inl (by simp)) ⟨rfl, rfl, rfl, rfl, rfl⟩ (.inl rfl)
  · split
    · refine record _ byte (.inl (by simp)) ⟨rfl, rfl, rfl, rfl, rfl⟩ ?_
      dsimp only
      split
      case isTrue filling => exact .inr ⟨filling, rfl⟩
      case isFalse => exact .inl rfl
    · have counted := record { s.frame r with filled := (s.frame r).filled + 1, fillOffset := 0 } byte (.inl (by simp))
        ⟨rfl, rfl, rfl, rfl, rfl⟩ (.inl rfl)
      split
      case h_1 s3 answer =>
        have quiet := (checkLink_quiet _ _).of_answer answer
        exact ⟨counted.1.trans quiet.pieces, by rw [quiet.frame]; exact counted.2⟩
      case h_2 s3 answer =>
        have quiet := (checkLink_quiet _ _).of_answer answer
        refine record _ (counted.1.trans quiet.pieces) (.inr ?_) ⟨rfl, rfl, rfl, rfl, rfl⟩ (.inl rfl)
        simp [quiet.frame, sameFrame]

theorem fillBytes_pieces (r : Nat) (xs : List Byte) {s : State} (used : (s.frame r).state ≠ .free) :
    Pieces s (fillBytes r xs s).2 := by
  induction xs generalizing s with
  | nil => exact .refl s
  | cons x xs ih =>
    have made := fillByte_made r x used
    unfold fillBytes
    split
    · split
      case h_1 s1 answer =>
        rw [answer] at made
        exact made.1.trans (ih made.2)
      case h_2 s1 answer =>
        rw [answer] at made
        exact made.1
    · exact .refl s

theorem presentBytes_pieces (r : Nat) (xs : List Byte) (s : State) : Pieces s (presentBytes r xs s).2 := by
  unfold presentBytes
  split
  case h_1 s1 answer => exact ((checkRecord_quiet r s).of_answer answer).pieces
  case h_2 s1 answer =>
    refine ((checkRecord_quiet r s).of_answer answer).pieces.trans ?_
    split
    case h_1 filling => exact fillBytes_pieces r xs (by simp [filling])
    case h_2 sending => exact fillBytes_pieces r xs (by simp [sending])
    all_goals exact .refl s1

/-! ### Device states -/

theorem stopHoldoffs_pieces {s : State} (up : s.hp.device ≠ .stopped) : Pieces s (stopHoldoffs s) := by
  unfold stopHoldoffs
  generalize List.range cqTotal = ns
  induction ns generalizing s with
  | nil => exact .refl s
  | cons n ns ih =>
    refine .trans (Piece.pieces (.completions n _ up ?_)) (ih ?_)
    · exact ⟨rfl, rfl, rfl, rfl, rfl⟩
    · simpa using up

theorem dropReports_quiet (s : State) : Quiet s (dropReports s) := .of_blocks (by simp [dropReports])
theorem haltLink_quiet (l : Nat) (s : State) : Quiet s (haltLink l s) := .of_blocks (by simp)
theorem takeDownLink_quiet (l : Nat) (s : State) : Quiet s (takeDownLink l s) := .of_blocks (by simp)
theorem selfResetLink_quiet (l : Nat) (s : State) : Quiet s (selfResetLink l s) := .of_blocks (by simp)
theorem resetLink_quiet (silent : Bool) (l : Nat) (s : State) : Quiet s (resetLink silent l s) := .of_blocks (by simp)
theorem cutOffReads_quiet (s : State) : Quiet s (cutOffReads s) := .of_blocks (by simp)

theorem noticeTakenDown_quiet (before : State) (l : Nat) (s : State) : Quiet s (noticeTakenDown before l s) := by
  unfold noticeTakenDown
  split
  · exact .refl s
  · exact raiseNotice_quiet ..

theorem forLinks_quiet {f : Nat → State → State} (each : ∀ l s, Quiet s (f l s)) (s : State) : Quiet s (forLinks f s) :=
  Quiet.foldl (fun s l => each l s) _ s

/-- A change of the HP alone is one of the device's state at most. -/
theorem onHp_alike (s : State) (f : HpBlock → HpBlock) : Alike s (s.onHp f) := .of_blocks (by simp [State.backlogLaw]) (by simp)

theorem onHp_quiet {s : State} {f : HpBlock → HpBlock} (same : (f s.hp).device = s.hp.device) : Quiet s (s.onHp f) :=
  ⟨onHp_alike s f, same⟩

theorem onAp_quiet (s : State) (f : ApBlock → ApBlock) : Quiet s (s.onAp f) := .of_blocks (by simp)

theorem onEc_quiet {s : State} {f : EcBlock → EcBlock} (same : (f s.ec).backlog = s.ec.backlog) : Quiet s (s.onEc f) :=
  .of_blocks (by simp [same])

theorem resetDatapath_piece (s : State) : Piece s (resetDatapath s) := .clear rfl rfl rfl rfl id

theorem abortOutstanding_quiet (es : List Outstanding) (s : State) : Quiet s (abortOutstanding es s) :=
  .of_blocks (by simp)

theorem completeSelfReset_pieces (s : State) : Pieces s (completeSelfReset s) := by
  refine (resetDatapath_piece s).pieces.trans ?_
  have halted : Pieces (resetDatapath s) (escalate (resetDatapath s)) :=
    .trans (Piece.pieces (.halt (onHp_alike _ fun b => { b with device := .failed }) (by simp) (by simp)))
      (raiseNotice_quiet ..).pieces
  have returned : Pieces (resetDatapath s) (returnToRunning (resetDatapath s)) := by
    unfold returnToRunning
    refine .trans (Piece.pieces (.start (.inr ⟨rfl, rfl, rfl⟩)
      (onHp_alike _ fun b => { b with device := .running }))) (Quiet.pieces ?_)
    exact (((abortOutstanding_quiet ..).trans (raiseNotice_quiet ..)).trans (onEc_quiet rfl)).trans
      (startCommandRead_quiet _)
  unfold completeSelfReset
  dsimp only
  split
  · exact halted
  · exact returned

theorem completeFunctionReset_piece (s : State) : Piece s (completeFunctionReset s) :=
  .clear rfl rfl rfl rfl fun _ => by simp [State.backlogLaw, completeFunctionReset, State.reset, EcBlock.reset]

theorem completeReset_pieces (s : State) : Pieces s (completeReset s) := by
  unfold completeReset
  split
  · split
    · exact completeSelfReset_pieces s
    · exact (completeFunctionReset_piece s).pieces
    all_goals exact .refl s
  · exact .refl s

/-- The first part of every entry into a state that is neither RUNNING nor STOPPED. -/
theorem entry_pieces (s : State) (f : HpBlock → HpBlock) (run : (f s.hp).device ≠ .running)
    (up : (f s.hp).device ≠ .stopped) : Pieces s (dropReports (stopHoldoffs (s.onHp f))) :=
  .trans (.trans (Piece.pieces (.halt (onHp_alike s f) run up)) (stopHoldoffs_pieces up)) (dropReports_quiet _).pieces

theorem enterFailed_pieces (down : Bool) (s : State) : Pieces s (enterFailed down s) := by
  have entered := entry_pieces s (fun b => { b with device := .failed }) (by simp) (by simp)
  refine entered.trans (Quiet.pieces ?_)
  unfold enterFailed
  dsimp only
  cases down <;> simp only [Bool.false_eq_true, if_true, if_false]
  · exact (forLinks_quiet haltLink_quiet _).trans (raiseNotice_quiet ..)
  · exact ((forLinks_quiet takeDownLink_quiet _).trans (raiseNotice_quiet ..)).trans
      (forLinks_quiet (noticeTakenDown_quiet s) _)

theorem enterSelfResetting_pieces (s : State) : Pieces s (enterSelfResetting s) := by
  have entered := entry_pieces s (fun b => { b with device := .selfResetting }) (by simp) (by simp)
  exact (entered.trans (forLinks_quiet selfResetLink_quiet _).pieces).trans (completeReset_pieces _)

theorem enterResetting_pieces (s : State) : Pieces s (enterResetting s) := by
  have entered := entry_pieces s (fun b => { b with device := .resetting, run := false }) (by simp) (by simp)
  exact entered.trans (forLinks_quiet (resetLink_quiet _) _).pieces

theorem startFunctionReset_pieces (s : State) : Pieces s (startFunctionReset s) := by
  unfold startFunctionReset
  split
  · exact .refl s
  · exact (enterResetting_pieces s).trans (completeReset_pieces _)

theorem startHostLinkReset_pieces (s : State) : Pieces s (startHostLinkReset s) := by
  unfold startHostLinkReset
  split
  · exact .refl s
  · exact ((cutOffReads_quiet s).pieces.trans (enterResetting_pieces _)).trans (completeReset_pieces _)

theorem discardSlotRead_pieces (i : Nat) {s : State} (run : s.hp.device ≠ .running) : Pieces s (discardSlotRead i s) :=
  .trans (Piece.pieces (.discard i run)) (completeReset_pieces _)

theorem discardAdminRead_pieces (s : State) : Pieces s (discardAdminRead s) :=
  .trans (onAp_quiet s _).pieces (completeReset_pieces _)

/-! ### The window -/

theorem storeMode_quiet (w : Word32) (s : State) : Quiet s (storeMode w s) := by
  have stored : Quiet s (match controlMode w with | none => s | some m => s.onHp fun b => { b with mode := m }) := by
    split
    · exact .refl s
    · exact onHp_quiet rfl
  unfold storeMode
  split
  case h_4 => exact .refl s
  case h_5 => exact .refl s
  all_goals exact stored

theorem startDevice_pieces (s : State) : Pieces s (startDevice s) := by
  unfold startDevice
  split
  case isFalse => exact .refl s
  case isTrue stopped =>
    split
    · exact .trans (Piece.pieces (.start (.inl stopped) (onHp_alike s _)))
        ((drainBacklog_quiet _).trans (startCommandRead_quiet _)).pieces
    · exact (onHp_quiet rfl).pieces

theorem writeControl_pieces (w : Word32) (s : State) : Pieces s (writeControl w s) := by
  unfold writeControl
  split
  · exact .refl s
  · split
    · exact startFunctionReset_pieces s
    · split
      · exact (storeMode_quiet w s).pieces.trans (startDevice_pieces _)
      · exact (storeMode_quiet w s).pieces

theorem writeSystemRegister_quiet (r : SystemRingRegister) (v : Word32) (s : State) :
    Quiet s (writeSystemRegister r v s) := by
  unfold writeSystemRegister
  split
  · exact onHp_quiet (by cases r <;> rfl)
  · exact .refl s

theorem refuseIndex_quiet (p : Nat) (v : Word32) (s : State) : Quiet s (refuseIndex p v s) := raiseNotice_quiet ..

theorem clearLatch_quiet (s : State) : Quiet s (clearLatch s) := onHp_quiet rfl

theorem writeSqPort_pieces (n : Nat) (v : Word32) (s : State) : Pieces s (writeSqPort n v s) := by
  have taken : Pieces s (takeSqProducer n v s) := by
    unfold takeSqProducer
    split
    case isTrue => exact (refuseIndex_quiet ..).pieces
    case isFalse present =>
      have used : (s.sq n).state ≠ .absent := fun absent => present (.inl absent)
      exact Piece.pieces (.ring n _ ⟨used, used, rfl, rfl, rfl, rfl, rfl⟩)
  unfold writeSqPort
  split
  case h_1 => exact taken
  case h_2 => exact taken
  all_goals exact .refl s

theorem writeCqPort_pieces (n : Nat) (v : Word32) (s : State) : Pieces s (writeCqPort n v s) := by
  have taken : Pieces s (takeCqConsumer n v s) := by
    unfold takeCqConsumer
    dsimp only
    split
    case isTrue => exact (refuseIndex_quiet ..).pieces
    case isFalse present =>
      split
      case isTrue inRange =>
        exact Piece.pieces (.consume n _ (fun absent => present (.inl absent)) (by omega) inRange)
      case isFalse => exact (refuseIndex_quiet ..).pieces
  unfold writeCqPort
  split
  case h_1 => exact taken
  case h_2 => exact taken
  all_goals exact .refl s

theorem writeAsrPort_quiet (v : Word32) (s : State) : Quiet s (writeAsrPort v s) := by
  unfold writeAsrPort
  split
  case h_1 | h_2 =>
    split
    · exact refuseIndex_quiet ..
    · exact (onAp_quiet s _).trans (startCommandRead_quiet _)
  all_goals exact .refl s

theorem writeAcrPort_quiet (v : Word32) (s : State) : Quiet s (writeAcrPort v s) := by
  unfold writeAcrPort
  split
  case h_1 | h_2 =>
    refine (clearLatch_quiet s).trans ?_
    dsimp only
    split
    · exact refuseIndex_quiet ..
    · split
      · exact (onAp_quiet _ _).trans (startCommandRead_quiet _)
      · exact refuseIndex_quiet ..
  all_goals exact .refl s

theorem writeNrPort_quiet (v : Word32) (s : State) : Quiet s (writeNrPort v s) := by
  unfold writeNrPort
  split
  case h_1 | h_2 | h_3 =>
    refine (clearLatch_quiet s).trans ?_
    dsimp only
    split
    · exact refuseIndex_quiet ..
    · split
      · exact (onEc_quiet (by rfl)).trans (drainBacklog_quiet _)
      · exact refuseIndex_quiet ..
  all_goals exact .refl s

theorem writeWindow_pieces (o w : Nat) (v : Word32) (s : State) : Pieces s (writeWindow o w v s) := by
  have port : ∀ n, Pieces s (writePort n v s) := by
    intro n
    unfold writePort
    split
    · exact writeSqPort_pieces ..
    · split
      · exact (writeAsrPort_quiet ..).pieces
      · split
        · exact writeCqPort_pieces ..
        · split
          · exact (writeAcrPort_quiet ..).pieces
          · exact (writeNrPort_quiet ..).pieces
  unfold writeWindow
  split
  · exact .refl s
  · split
    · exact writeControl_pieces v s
    · split
      · exact (writeSystemRegister_quiet ..).pieces
      · split
        · exact port _
        · exact .refl s

/-! ### The fetch path -/

theorem endFetch_pieces (i r : Nat) (ok : Bool) {s : State} (run : s.hp.device = .running)
    (other : ∀ n k, s.slot i ≠ .descRead n k) : Pieces s (endFetch i r ok s) :=
  .trans (Piece.pieces (.slot i .idle run other (by simp))) (Quiet.of_blocks (by simp [endFetch])).pieces

theorem advancePayload_pieces (i n r : Nat) (gs : List Segment) (c o k : Nat) {s : State} (run : s.hp.device = .running)
    (other : ∀ n k, s.slot i ≠ .descRead n k) : Pieces s (advancePayload i n r gs c o k s) := by
  have next : ∀ g o' x, (∀ n k, x ≠ .descRead n k) → Pieces s (issuePayload i g o' (s.setSlot i x)) := fun g o' x apart =>
    .trans (Piece.pieces (.slot i x run other apart)) (issuePayload_quiet ..).pieces
  unfold advancePayload
  split
  · exact endFetch_pieces i r true run other
  · split
    · exact next _ _ _ (by simp)
    · split
      · exact endFetch_pieces i r true run other
      · exact next _ _ _ (by simp)

theorem invalidSubcode_none {s : State} {d : Descriptor} (valid : invalidSubcode s d = none) : 1 ≤ d.length := by
  unfold invalidSubcode at valid
  by_contra short
  have zero : d.length < 1 := by omega
  simp [zero] at valid
  split at valid <;> simp_all
  split at valid <;> simp_all

/-- What an admission request answers and where it leaves the part (R12): nothing changed but by the checks, or, where it
is admitted, a record of the free list written. -/
theorem requestAdmission_cases (n : Nat) (d : Descriptor) (need : Nat) (s : State) :
    (∃ a u, requestAdmission n d need s = (a, u) ∧ Quiet s u ∧ ∀ r, a ≠ .admitted r) ∨
    ∃ r u, requestAdmission n d need s = (.admitted r, admitRecord n d need r u) ∧ Quiet s u ∧
      (s.flow d.flow).state = .enabled ∧ (s.flow d.flow).held + need ≤ (s.flow d.flow).cap ∧ need ≤ s.bm.freeCount ∧
      s.bm.freeRecords.head? = some r := by
  unfold requestAdmission
  dsimp only
  split
  case isTrue => exact .inl ⟨_, _, rfl, .refl s, by simp⟩
  case isFalse enabled =>
    split
    case isTrue => exact .inl ⟨_, _, rfl, .refl s, by simp⟩
    case isFalse cap =>
      split
      case isTrue => exact .inl ⟨_, _, rfl, .refl s, by simp⟩
      case isFalse room =>
        split
        case h_1 => exact .inl ⟨_, _, rfl, .refl s, by simp⟩
        case h_2 r rest free =>
          split
          case h_1 s1 answer => exact .inl ⟨_, _, rfl, (checkRecord_quiet r s).of_answer answer, by simp⟩
          case h_2 s1 answer =>
            have checked := (checkRecord_quiet r s).of_answer answer
            split
            case h_1 s2 linked => exact .inl ⟨_, _, rfl, checked.trans ((checkLinks_quiet ..).of_answer linked), by simp⟩
            case h_2 s2 linked =>
              refine .inr ⟨r, s2, rfl, checked.trans ((checkLinks_quiet ..).of_answer linked), ?_⟩
              exact ⟨by simpa using enabled, by omega, by omega, by simp [free]⟩

/-- The start of an admitted frame's fetch, from the state in which the slot names it. -/
theorem startAdmitted_pieces (i n r : Nat) (d : Descriptor) (s : State) :
    Pieces (s.setSlot i (.payload n r d.used 0 0)) (startAdmitted i n r d s) := by
  have begun : Quiet (s.setSlot i (.payload n r d.used 0 0)) (beginPayload i n r d.used s) := by
    unfold beginPayload
    dsimp only
    split
    · exact .refl _
    · exact issuePayload_quiet ..
  unfold startAdmitted
  dsimp only
  split
  · exact begun.pieces.trans (consider_pieces ..)
  · exact begun.pieces

theorem takeDescriptor_made (i n k : Nat) (d : Descriptor) {s : State} (run : s.hp.device = .running)
    (slot : s.slot i = .descRead n k) (active : (s.sq n).state = .active) : Made s (takeDescriptor i n k d s) := by
  have refuse : ∀ u, Quiet s u → ∀ st sub, Made s ((completeUnadmitted n d.tag st sub (takeHead n u)).setSlot i .idle) := by
    intro u quiet st sub
    refine .inl (quiet.pieces.trans (Piece.pieces (.refuse i n k _ _ _ (quiet.device.trans run) ?_ ?_)))
    · rw [quiet.slot, slot]
    · rw [quiet.sq, active]
  unfold takeDescriptor
  split
  case h_1 => exact refuse s (.refl s) _ _
  case h_2 valid =>
    have long := invalidSubcode_none valid
    rcases requestAdmission_cases n d (cellNeed d.length) s with ⟨a, u, answer, quiet, notAdmitted⟩ |
      ⟨r, u, answer, quiet, enabled, cap, room, free⟩
    · have runU := quiet.device.trans run
      have slotU := (quiet.slot i).trans slot
      have activeU : (u.sq n).state = .active := by rw [quiet.sq, active]
      rw [answer]
      cases a with
      | admitted r => exact absurd rfl (notAdmitted r)
      | notReady => exact refuse u quiet _ _
      | noAnswer => exact .inl quiet.pieces
      | noRoom =>
        dsimp only
        split
        · exact refuse u quiet _ _
        · exact .inl (quiet.pieces.trans (Piece.pieces (.hold i n k _ runU slotU activeU long rfl)))
    · rw [answer]
      refine .inr ⟨u, _, quiet, .fresh i n k d d.used r (quiet.device.trans run) ?_ ?_ long ?_ ?_ ?_ ?_,
        startAdmitted_pieces ..⟩
      · rw [quiet.slot, slot]
      · rw [quiet.sq, active]
      · rw [quiet.flow, enabled]
      · rwa [quiet.flow]
      · rwa [quiet.freeCount]
      · rwa [quiet.freeRecords]

theorem returnDescriptor_made (i n k : Nat) (x : BitVec 512) {s : State} (run : s.hp.device = .running)
    (slot : s.slot i = .descRead n k) : Made s (returnDescriptor i n k x s) := by
  unfold returnDescriptor
  split
  case h_1 active => exact takeDescriptor_made i n k _ run slot active
  all_goals
    exact .inl (.trans (Piece.pieces (.release i n k run slot)) (endDeletion_pieces n (by simpa using run)))

theorem failDescriptor_pieces (i n k : Nat) {s : State} (run : s.hp.device = .running) (slot : s.slot i = .descRead n k) :
    Pieces s (failDescriptor i n k s) := by
  refine .trans (Piece.pieces (.release i n k run slot)) ?_
  unfold failDescriptor
  dsimp only
  split
  case h_1 active =>
    refine .trans (Piece.pieces (.ring n _ ?_)) (raiseNotice_quiet ..).pieces
    exact ⟨by simp [active], by simp, rfl, rfl, rfl, rfl, rfl⟩
  all_goals exact endDeletion_pieces n (by simpa using run)

theorem failSlotRead_pieces (i : Nat) (s : State) : Pieces s (failSlotRead i s) := by
  refine (freeRead_quiet i s).pieces.trans ?_
  unfold failSlotRead
  dsimp only
  split
  case isTrue run =>
    split
    case h_1 n k slot => exact failDescriptor_pieces i n k run slot
    case h_2 slot => exact endFetch_pieces i _ false run (by simp [slot])
    case h_3 => exact .refl _
  case isFalse run => exact discardSlotRead_pieces i run

theorem failAdminRead_pieces (s : State) : Pieces s (failAdminRead s) := by
  refine (freeRead_quiet 8 s).pieces.trans ?_
  unfold failAdminRead
  dsimp only [adminReadEntry]
  split
  · split
    · exact ((onAp_quiet _ _).trans (raiseNotice_quiet ..)).pieces
    · exact .refl _
  · exact discardAdminRead_pieces _

theorem reportFill_pieces (r : Nat) {s : State} (run : s.hp.device = .running) : Pieces s (reportFill r s) := by
  have told : Pieces s (if (s.frame r).state = .sending then
      takeFillReport (s.flow (s.frame r).flow).link r (s.frame r).filled s else s) := by
    split
    · exact takeFillReport_pieces _ _ _ run
    · exact .refl s
  unfold reportFill
  dsimp only
  by_cases idle : ((if (s.frame r).state = .sending then
      takeFillReport (s.flow (s.frame r).flow).link r (s.frame r).filled s else s).link
        (s.flow (s.frame r).flow).link).serializer = none
  · rw [if_pos idle]
    exact told.trans (afterLinkEnd_pieces ..)
  · rw [if_neg idle]
    exact told

theorem returnPayload_pieces (i n r : Nat) (gs : List Segment) (c o : Nat) (xs : List Byte) {s : State}
    (run : s.hp.device = .running) (other : ∀ n k, s.slot i ≠ .descRead n k) :
    Pieces s (returnPayload i n r gs c o xs s) := by
  have presented := presentBytes_pieces r xs s
  have frames := presentBytes_frame r xs s
  have reported : ∀ {p : Prop} [Decidable p] {u : State}, Pieces s u → u.hp.device = .running →
      Pieces s (if p then reportFill r u else u) := by
    intro p _ u before runU
    split
    · exact before.trans (reportFill_pieces r runU)
    · exact before
  unfold returnPayload
  dsimp only
  split
  case h_1 s1 answer =>
    rw [answer] at presented frames
    obtain ⟨-, hp, dfu, -⟩ := frames
    have run1 : s1.hp.device = .running := by rw [hp, run]
    have other1 : ∀ n k, s1.slot i ≠ .descRead n k := by
      intro m k
      rw [State.slot_congr s s1 i (by rw [dfu])]
      exact other m k
    exact reported (presented.trans (advancePayload_pieces i n r gs c o _ run1 other1)) (by simpa using run1)
  case h_2 s1 answer =>
    rw [answer] at presented frames
    exact reported presented (by rw [frames.2.1, run])

theorem failFilling_pieces (r : Nat) {s : State} (run : s.hp.device = .running) (filling : (s.frame r).state = .filling) :
    Pieces s (failFilling r s) := by
  have retired := retire_pieces (u := leaveQueue r (s.setFrame r { s.frame r with
      fetchEnded := true, cause := firstCause (s.frame r).cause (some .hostReadError) })) r (by simpa using run)
    (Piece.pieces (.retireQueued r _ run (.inl filling) ⟨rfl, rfl, rfl, rfl, rfl⟩))
  unfold failFilling
  dsimp only
  split
  · exact retired.trans (consider_pieces ..)
  · exact retired

theorem applyFetchEnd_pieces (r : Nat) (ok : Bool) {s : State} (run : s.hp.device = .running) :
    Pieces s (applyFetchEnd r ok s) := by
  have ended : ∀ g, (s.frame r).state ≠ .free → sameFrame (s.frame r) g → g.state = (s.frame r).state →
      Pieces s (s.setFrame r g) := fun g used same state => Piece.pieces (.record r g used same (.inl state))
  have apart : (s.frame r).state = .closing ∨ (s.frame r).state = .discarding →
      Pieces s (retire r (s.setFrame r { s.frame r with fetchEnded := true })) := fun out =>
    retire_pieces r (by simpa using run) (Piece.pieces (.retireApart r _ run out ⟨rfl, rfl, rfl, rfl, rfl⟩))
  unfold applyFetchEnd
  dsimp only
  split
  case h_1 filling =>
    split
    · exact ended _ (by simp [filling]) ⟨rfl, rfl, rfl, rfl, rfl⟩ (by simp)
    · exact failFilling_pieces r run filling
  case h_2 ready => exact ended _ (by simp [ready]) ⟨rfl, rfl, rfl, rfl, rfl⟩ (by simp)
  case h_3 sending =>
    split
    · exact ended _ (by simp [sending]) ⟨rfl, rfl, rfl, rfl, rfl⟩ (by simp)
    · refine (ended { s.frame r with fetchEnded := true, cause := firstCause (s.frame r).cause (some .fetchAborted) }
        (by simp [sending]) ⟨rfl, rfl, rfl, rfl, rfl⟩ (by simp)).trans (Quiet.of_blocks (by simp)).pieces
  case h_4 closing => exact apart (.inl closing)
  case h_5 discarding => exact apart (.inr discarding)
  case h_6 => exact .refl s

theorem fetchEndEvent_pieces (r : Nat) (s : State) : Pieces s (fetchEndEvent r s) := by
  unfold fetchEndEvent
  split
  case h_1 => exact .refl s
  case h_2 ok rest _ =>
    have taken : Quiet s (s.onBm fun b => { b with fetchEnds := rest }) := .of_blocks (by simp)
    refine taken.pieces.trans ?_
    dsimp only
    split
    case isFalse => exact .refl _
    case isTrue run =>
      split
      case h_1 s2 answer =>
        have quiet := (checkRecord_quiet ..).of_answer answer
        exact quiet.pieces.trans (applyFetchEnd_pieces r ok (quiet.device.trans run))
      case h_2 s2 answer => exact ((checkRecord_quiet ..).of_answer answer).pieces

theorem retryHeld_made (i n : Nat) (h : HeldCopy) {s : State} (run : s.hp.device = .running) (idle : s.slot i = .idle)
    (held : (s.sq n).held = some h) : Made s (retryHeld i n h s) := by
  have drop : ∀ u, Quiet s u → ∀ st sub,
      Made s (completeUnadmitted n h.descriptor.tag st sub (clearHeld n u)) := by
    intro u quiet st sub
    exact .inl (quiet.pieces.trans (Piece.pieces (.drop n h _ _ _ (quiet.device.trans run) (by rw [quiet.sq, held]))))
  unfold retryHeld
  dsimp only
  rcases requestAdmission_cases n h.descriptor h.need s with ⟨a, u, answer, quiet, notAdmitted⟩ |
    ⟨r, u, answer, quiet, enabled, cap, room, free⟩
  · rw [answer]
    cases a with
    | admitted r => exact absurd rfl (notAdmitted r)
    | notReady => exact drop u quiet _ _
    | noAnswer => exact .inl (quiet.trans (heldMap_quiet _ u)).pieces
    | noRoom =>
      dsimp only
      split
      · exact drop u quiet _ _
      · split
        · exact drop u quiet _ _
        · exact .inl (quiet.trans (holdAgain_quiet (by rw [quiet.sq, held]))).pieces
  · rw [answer]
    refine .inr ⟨u, _, quiet, .retried i n h h.descriptor.used r (quiet.device.trans run) ?_ ?_ ?_ ?_ ?_ ?_,
      startAdmitted_pieces ..⟩
    · rw [quiet.slot, idle]
    · rw [quiet.sq, held]
    · rw [quiet.flow, enabled]
    · rwa [quiet.flow]
    · rwa [quiet.freeCount]
    · rwa [quiet.freeRecords]

end Sys2Proof.Proofs.Datapath

/-! Which pieces a step is made of, continued: the admin commands, and then the sixty commands. -/

namespace Sys2Proof.Proofs.Datapath

open Sys2Proof Sys2Proof.Machine Host Sys2Proof.Proofs

/-! ### The admin commands -/

/-- A command is taken while the device runs, so its effect is one on a running device. -/
theorem takeCommand_pieces {effect : State → State} (pieces : ∀ u, u.hp.device = .running → Pieces u (effect u))
    (s : State) : Pieces s (takeCommand effect s) := by
  unfold takeCommand
  split
  case isFalse => exact .refl s
  case isTrue =>
    refine (freeRead_quiet adminReadEntry s).pieces.trans ?_
    dsimp only
    split
    case isFalse => exact discardAdminRead_pieces _
    case isTrue run =>
      split
      case isFalse => exact .refl _
      case isTrue => exact .trans (.trans (onAp_quiet _ _).pieces (pieces _ run)) (startCommandRead_quiet _).pieces

theorem shortCommand_pieces {tag : BitVec 16} {kind : Nat} {status : AdminStatus} {effect : State → State} {s : State}
    (pieces : status = .ok → Pieces s (effect s)) : Pieces s (shortCommand tag kind status effect s) := by
  unfold shortCommand
  refine .trans ?_ (adminComplete_quiet ..).pieces
  split
  case isTrue ok => exact pieces ok
  case isFalse => exact .refl s

theorem createSqStatus_ok {s : State} {ring cq size limit : Nat} {base : Address}
    (ok : createSqStatus s ring cq size limit base = .ok) :
    ring < 32 ∧ (s.cq cq).state = .active ∧ (s.sq ring).state = .absent := by
  unfold createSqStatus at ok
  split at ok
  · cases ok
  · split at ok
    · cases ok
    · split at ok
      · cases ok
      · simp_all
        omega

theorem createCqStatus_ok {s : State} {ring vector threshold size holdoff : Nat} {base : Address}
    (ok : createCqStatus s ring vector threshold size holdoff base = .ok) :
    0 < size ∧ (s.cq ring).state = .absent := by
  unfold createCqStatus at ok
  split at ok
  · cases ok
  · split at ok
    · cases ok
    · rename_i valid
      split at ok
      · cases ok
      · rename_i absent
        refine ⟨?_, by simpa using absent⟩
        rcases Nat.eq_zero_or_pos size with zero | pos
        · simp [zero, ringSizes] at valid
        · exact pos

theorem deleteCqStatus_ok {s : State} {ring : Nat} (ok : deleteCqStatus s ring = .ok) : cqBound s ring = false := by
  unfold deleteCqStatus at ok
  split at ok
  · cases ok
  · split at ok
    · cases ok
    · split at ok
      · cases ok
      · rename_i free
        simpa using free

theorem beginDeletion_pieces (tag : BitVec 16) (n : Nat) {s : State} (run : s.hp.device = .running)
    (present : (s.sq n).state ≠ .absent) : Pieces s (beginDeletion tag n s) := by
  have marked : Pieces s (s.setSq n { s.sq n with state := .deleting }) :=
    Piece.pieces (.ring n _ ⟨present, by simp, rfl, rfl, rfl, rfl, rfl⟩)
  unfold beginDeletion
  refine .trans (.trans marked ?_) (endDeletion_pieces n ?_)
  · refine .trans ?_ (appendOutstanding_quiet ..).pieces
    split
    case h_1 => exact .refl _
    case h_2 h held => exact Piece.pieces (.drop n h _ _ _ (by simpa using run) held)
  · split <;> simpa using run

theorem configureFlowStatus_ok {s : State} {flow link cls cap : Nat} {policy : BitVec 8} {threshold : Nat}
    (ok : configureFlowStatus s flow link cls cap policy threshold = .ok) :
    (s.flow flow).held = 0 ∨ (s.flow flow).state = .unconfigured := by
  unfold configureFlowStatus at ok
  split at ok
  · cases ok
  · split at ok
    · cases ok
    · split at ok
      case h_1 state => exact .inr state
      case h_2 =>
        split at ok
        case isTrue held => exact .inl held
        case isFalse => cases ok
      case h_3 => cases ok
      case h_4 => cases ok

/-- A flow's state written, none of them UNCONFIGURED. -/
theorem setFlowState_piece {s : State} (n : Nat) (x : FlowState) (configured : x ≠ .unconfigured) :
    Piece s (s.setFlow n { s.flow n with state := x }) :=
  .flow n _ ⟨rfl, rfl, .inl rfl, fun h => absurd h configured⟩

theorem flushHeld_pieces (n : Nat) {s : State} (run : s.hp.device = .running) : Pieces s (flushHeld s n) := by
  unfold flushHeld
  split
  case h_1 => exact .refl s
  case h_2 h held => exact Piece.pieces (.drop n h _ _ _ run held)

theorem flushHeld_foldl_pieces (ns : List Nat) {s : State} (run : s.hp.device = .running) :
    Pieces s (ns.foldl flushHeld s) := by
  induction ns generalizing s with
  | nil => exact .refl s
  | cons n ns ih => exact (flushHeld_pieces n run).trans (ih (by simpa using run))

theorem flushRecord_pieces (f r : Nat) (a : Option Nat) {s : State} (run : s.hp.device = .running) :
    Pieces s (flushRecord f (a, s) r).2 := by
  have leaves : queued (s.frame r) → Pieces s (leaveQueue r (s.setFrame r { s.frame r with
      state := .discarding, cause := firstCause (s.frame r).cause (some .flushed) })) := fun inQueue =>
    Piece.pieces (.leave r _ inQueue ⟨rfl, rfl, rfl, rfl, rfl⟩ (.inr rfl))
  unfold flushRecord
  dsimp only
  split
  case h_1 ready =>
    split
    · have retired : Pieces s (retireRecord r (leaveQueue r (s.setFrame r { s.frame r with
          cause := firstCause (s.frame r).cause (some .flushed) }))) :=
        Piece.pieces (.retireQueued r _ run (.inr (.inl ready)) ⟨rfl, rfl, rfl, rfl, rfl⟩)
      dsimp only at retired
      split
      · exact retired
      · dsimp only
        exact retired.trans (endDeletion_pieces _ (by simpa using run))
    · exact leaves (.inr (.inl ready))
  case h_2 filling => exact leaves (.inl filling)
  all_goals exact .refl s

theorem flushRecord_foldl_pieces (f : Nat) (rs : List Nat) (a : Option Nat) {s : State}
    (run : s.hp.device = .running) : Pieces s (rs.foldl (flushRecord f) (a, s)).2 := by
  induction rs generalizing a s with
  | nil => exact .refl s
  | cons r rs ih => exact (flushRecord_pieces f r a run).trans (ih _ (by simpa using run))

theorem beginFlush_pieces (tag : BitVec 16) (f : Nat) {s : State} (run : s.hp.device = .running) :
    Pieces s (beginFlush tag f s) := by
  have begun : Piece s (s.setFlow f { s.flow f with state := .flushing, flushed := 0 }) :=
    .flow f _ ⟨rfl, rfl, .inl rfl, by simp⟩
  have ended : ∀ (o : Option Nat) (u : State), u.hp.device = .running →
      Pieces u (match o with | none => u | some n => endDeletion n u) := by
    intro o u runU
    cases o with
    | none => exact .refl u
    | some n => exact endDeletion_pieces n runU
  have told : ∀ (p : Prop) [Decidable p] (u : State) (l : Nat), Pieces u (if p then u else consider l u) := by
    intro p _ u l
    split
    · exact .refl u
    · exact consider_pieces l u
  have completed : ∀ u, Pieces u (if (u.flow f).held = 0 then
      adminComplete tag 0x13 .ok ((u.flow f).flushed % 2 ^ 16) (u.setFlow f { u.flow f with state := .disabled })
      else appendOutstanding (.flushFlow f) tag u) := by
    intro u
    split
    · exact (setFlowState_piece f .disabled (by simp)).pieces.trans (adminComplete_quiet ..).pieces
    · exact (appendOutstanding_quiet ..).pieces
  refine begun.pieces.trans ((flushHeld_foldl_pieces _ (by simpa using run)).trans
    ((flushRecord_foldl_pieces f _ none (by simpa using run)).trans ((told _ _ _).trans ((completed _).trans (ended _ _ ?_)))))
  split <;> split <;> simpa using run

theorem flushFlow_pieces (tag : BitVec 16) (f : Nat) {s : State} (run : s.hp.device = .running) :
    Pieces s (flushFlow tag f s) := by
  have walked : Pieces s (match checkRecords (s.flow f).queue s with
      | (true, s1) => beginFlush tag f s1
      | (false, s1) => adminComplete tag 0x13 .aborted 0 s1) := by
    split
    case h_1 s1 answer =>
      have quiet := (checkRecords_quiet ..).of_answer answer
      exact quiet.pieces.trans (beginFlush_pieces tag f (quiet.device.trans run))
    case h_2 s1 answer =>
      exact (((checkRecords_quiet ..).of_answer answer).trans (adminComplete_quiet ..)).pieces
  unfold flushFlow
  split
  · exact (adminComplete_quiet ..).pieces
  · split
    case h_1 => exact (adminComplete_quiet ..).pieces
    case h_2 => exact (adminComplete_quiet ..).pieces
    all_goals exact walked

theorem enableLink_quiet (tag : BitVec 16) (l k : Nat) (s : State) : Quiet s (enableLink tag l k s) :=
  .of_blocks (by simp)
theorem disableLink_quiet (tag : BitVec 16) (l : Nat) (s : State) : Quiet s (disableLink tag l s) := .of_blocks (by simp)

theorem activateCalendar_pieces (tag : BitVec 16) (l : Nat) (s : State) : Pieces s (activateCalendar tag l s) := by
  unfold activateCalendar
  split
  · exact (adminComplete_quiet ..).pieces
  · split
    · exact (adminComplete_quiet ..).pieces
    · have pending : Quiet s (appendOutstanding (.activateCalendar l) tag
          (s.setSched l { s.sched l with activation := true })) := .of_blocks (by simp)
      refine pending.pieces.trans ?_
      unfold beginActivation
      dsimp only
      split
      · exact consider_pieces ..
      · exact (applyActivation_quiet ..).pieces

/-! ### The partner and Error Control -/

theorem bringUp_pieces (l a b c d : Nat) (s : State) : Pieces s (bringUp l a b c d s) :=
  .trans (Quiet.of_blocks (by simp)).pieces (consider_pieces l _)

theorem takeCredit_pieces (l lane k : Nat) {s : State} (run : s.hp.device = .running) :
    Pieces s (takeCredit l lane k s) := by
  unfold takeCredit
  split
  · exact .trans (Quiet.of_blocks (by simp)).pieces (consider_pieces l _)
  · exact failLinkEvent_pieces l _ run

theorem downInDrain_pieces (l : Nat) {s : State} (run : s.hp.device = .running) : Pieces s (downInDrain l s) := by
  unfold downInDrain
  split
  case h_1 s1 answer =>
    have quiet := (checkSending_quiet l s).of_answer answer
    exact (quiet.pieces.trans (loseFrame_pieces l (quiet.device.trans run))).trans
      ((clearCredit_quiet ..).trans (endLinkCommand_quiet ..)).pieces
  case h_2 s1 answer => exact ((checkSending_quiet l s).of_answer answer).pieces

theorem takeReport_quiet (r : EccReport) (s : State) : Quiet s (takeReport r s) := onEc_quiet rfl

theorem countCorrection_quiet (m : ProtectedMemory) (s : State) : Quiet s (countCorrection m s) := by
  have counted : ∀ n, Quiet s (setCorrectableCount m n s) := fun n => onEc_quiet (by cases m <;> rfl)
  unfold countCorrection
  dsimp only
  split
  · exact (counted 0).trans (raiseNotice_quiet ..)
  · exact counted _

theorem contain_pieces (cause : FatalCause) (s : State) : Pieces s (contain cause s) := by
  have stored : Quiet s (s.onEc fun b => { b with fatalCause := some cause }) := onEc_quiet rfl
  refine stored.pieces.trans ?_
  unfold contain
  dsimp only
  split
  · exact enterFailed_pieces ..
  · exact enterFailed_pieces ..
  · exact enterSelfResetting_pieces ..

/-! ### The sixty commands -/

theorem Made.of_next {s t u : State} {o : Outcome State Fault Refusal} (made : Made s u) (same : o = .next u)
    (next : o = .next t) : Made s t := by
  obtain rfl : u = t := by simpa [same] using next
  exact made

/-- An event that happens only where a condition holds. -/
theorem Pieces.ite {p : Prop} [Decidable p] {s u : State} (pieces : p → Pieces s u) : Pieces s (if p then u else s) := by
  split
  case isTrue h => exact pieces h
  case isFalse => exact .refl s

theorem slotRead_made (i : Nat) (data : BitVec 512) (s : State) : Made s
    (match s.slot i with
    | .descRead n k =>
      if awaitsResponse s i then
        if s.hp.device = .running then returnDescriptor i n k data (freeRead i s) else discardSlotRead i (freeRead i s)
      else s
    | .idle | .payload .. => s) := by
  have freed := freeRead_quiet i s
  split
  case h_1 n k slot =>
    split
    · split
      case isTrue run =>
        exact (returnDescriptor_made i n k data (freed.device.trans run) ((freed.slot i).trans slot)).after_quiet freed
      case isFalse run => exact .inl (freed.pieces.trans (discardSlotRead_pieces i (by rwa [freed.device])))
    · exact .inl (.refl s)
  all_goals exact .inl (.refl s)

theorem payloadRead_pieces (i : Nat) (data : List Byte) (s : State) : Pieces s
    (match s.slot i, s.read i with
    | .payload n r gs c o, some e =>
      if e.cutOff = false ∧ data.length = e.length then
        if s.hp.device = .running then returnPayload i n r gs c o data (freeRead i s)
        else discardSlotRead i (freeRead i s)
      else s
    | _, _ => s) := by
  have freed := freeRead_quiet i s
  split
  case h_1 n r gs c o e slot _ =>
    split
    · refine freed.pieces.trans ?_
      split
      case isTrue run => exact returnPayload_pieces i n r gs c o data (freed.device.trans run) (by simp [freed.slot, slot])
      case isFalse run => exact discardSlotRead_pieces i (by rwa [freed.device])
    · exact .refl s
  case h_2 => exact .refl s

theorem retry_made (s : State) : Made s
    (if s.hp.device = .running then
      match idleSlot s, retryClaim s with
      | some i, some e =>
        match (s.sq e.ring).held with
        | some h => retryHeld i e.ring h s
        | none => s
      | _, _ => s
    else s) := by
  split
  case isFalse => exact .inl (.refl s)
  case isTrue run =>
    split
    case h_1 i e idle _ =>
      have free : s.slot i = .idle := by simpa using List.find?_some idle
      split
      case h_1 h held => exact retryHeld_made i e.ring h run free held
      case h_2 => exact .inl (.refl s)
    case h_2 => exact .inl (.refl s)

theorem fetchSlotGrant_pieces (s : State) : Pieces s
    (if s.hp.device = .running ∧ retryClaim s = none then
      match idleSlot s, readClaim s with
      | some i, some n => grantRead i n s
      | _, _ => s
    else s) := by
  refine .ite fun guard => ?_
  split
  case h_1 i n idle claim =>
    exact Piece.pieces (.read i n guard.1 (by simpa using List.find?_some idle) (List.find?_some claim))
  case h_2 => exact .refl s

theorem cellSent_pieces (l : Nat) (s : State) : Pieces s
    (match (s.link l).serializer with
    | none => s
    | some z => if s.hp.device = .running ∧ z.state = .transmitting ∧ z.stopped = false then endCell l z s else s) := by
  split
  case h_1 => exact .refl s
  case h_2 z _ => exact .ite fun guard => endCell_pieces l z guard.1

theorem abortOrder_pieces (l r : Nat) (s : State) : Pieces s
    (if s.lu.aborts.contains (l, r) then
      let s1 := s.onLu fun b => { b with aborts := b.aborts.erase (l, r) }
      match (s1.link l).serializer with
      | none => s1
      | some z =>
        if s1.hp.device = .running ∧ z.record = r ∧ z.stopped = false then abortEvent l .fetchAborted s1 else s1
    else s) := by
  refine .ite fun _ => ?_
  have taken : Quiet s (s.onLu fun b => { b with aborts := b.aborts.erase (l, r) }) := .of_blocks (by simp)
  refine taken.pieces.trans ?_
  dsimp only
  split
  case h_1 => exact .refl _
  case h_2 z _ => exact .ite fun guard => abortEvent_pieces l _ guard.1

/-- Every command is a chain of pieces with at most one admission. -/
theorem exec_made {c : Instr} {s t : State} (next : exec c s = .next t) : Made s t := by
  have struck : ∀ us, Quiet s (strike us s) := fun us => strike_quiet us s
  cases c with
  | powerOn =>
    have cleared : Piece s { State.reset with pending := s.pending } :=
      .clear rfl rfl rfl rfl fun _ => by simp [State.backlogLaw, State.reset, EcBlock.reset]
    exact cleared.pieces.made.of_next rfl next
  | hostLinkReset => exact (startHostLinkReset_pieces s).made.of_next rfl next
  | functionReset w => exact (writeControl_pieces w s).made.of_next rfl next
  | run w => exact (writeControl_pieces w s).made.of_next rfl next
  | containmentModeWrite w => exact (writeControl_pieces w s).made.of_next rfl next
  | systemRingRegisterWrite r v => exact (writeSystemRegister_quiet r v s).pieces.made.of_next rfl next
  | registerWrite o w v => exact (writeWindow_pieces o w v s).made.of_next rfl next
  | sqProducerIndexWrite n v => exact (writeSqPort_pieces n v s).made.of_next rfl next
  | asrProducerIndexWrite v => exact (writeAsrPort_quiet v s).pieces.made.of_next rfl next
  | cqConsumerIndexWrite n v => exact (writeCqPort_pieces n v s).made.of_next rfl next
  | acrConsumerIndexWrite v => exact (writeAcrPort_quiet v s).pieces.made.of_next rfl next
  | nrConsumerIndexWrite v => exact (writeNrPort_quiet v s).pieces.made.of_next rfl next
  | fetchSlotGrant => exact (fetchSlotGrant_pieces s).made.of_next rfl next
  | retry us => exact ((retry_made (strike us s)).after_quiet (struck us)).of_next rfl next
  | descriptorReadReturn i x us => exact ((slotRead_made i x (strike us s)).after_quiet (struck us)).of_next rfl next
  | descriptorReadError i =>
    refine Made.of_next (.inl ?_) rfl next
    split
    case h_1 => exact .ite fun _ => failSlotRead_pieces i s
    all_goals exact .refl s
  | payloadReadReturn i xs us =>
    exact ((struck us).pieces.trans (payloadRead_pieces i xs (strike us s))).made.of_next rfl next
  | payloadReadError i =>
    refine Made.of_next (.inl ?_) rfl next
    split
    case h_1 => exact .ite fun _ => failSlotRead_pieces i s
    all_goals exact .refl s
  | hostReadTimeout e =>
    refine Made.of_next (.inl (.ite fun _ => ?_)) rfl next
    split
    · exact failSlotRead_pieces e s
    · exact failAdminRead_pieces s
  | strayReadResponse e => exact (Pieces.refl s).made.of_next rfl next
  | fetchEnd r us => exact ((struck us).pieces.trans (fetchEndEvent_pieces r _)).made.of_next rfl next
  | commandReadStart => exact (startCommandRead_quiet s).pieces.made.of_next rfl next
  | commandReadError => exact Made.of_next (.inl (.ite fun _ => failAdminRead_pieces s)) rfl next
  | createSq tag ring cq size limit base =>
    refine Made.of_next (.inl (takeCommand_pieces (fun u run => shortCommand_pieces fun ok => ?_) s)) rfl next
    obtain ⟨small, active, absent⟩ := createSqStatus_ok ok
    exact Piece.pieces (.createRing _ _ run small absent rfl rfl rfl (by simp [createdSq]) active)
  | deleteSq tag ring =>
    refine Made.of_next (.inl (takeCommand_pieces (fun u run => ?_) s)) rfl next
    split
    · exact (adminComplete_quiet ..).pieces
    · split
      case h_1 => exact (adminComplete_quiet ..).pieces
      case h_2 => exact (adminComplete_quiet ..).pieces
      case h_3 state => exact beginDeletion_pieces tag _ run (by simp [state])
      case h_4 state => exact beginDeletion_pieces tag _ run (by simp [state])
  | createCq tag ring vector threshold size holdoff base =>
    refine Made.of_next (.inl (takeCommand_pieces (fun u run => shortCommand_pieces fun ok => ?_) s)) rfl next
    obtain ⟨size, absent⟩ := createCqStatus_ok ok
    exact Piece.pieces (.createCompletions _ _ run absent rfl size rfl rfl rfl)
  | deleteCq tag ring =>
    refine Made.of_next (.inl (takeCommand_pieces (fun u run => shortCommand_pieces fun ok => ?_) s)) rfl next
    exact Piece.pieces (.removeCompletions _ run (deleteCqStatus_ok ok))
  | configureFlow tag flow link cls cap policy threshold =>
    refine Made.of_next (.inl (takeCommand_pieces (fun u run => shortCommand_pieces fun ok => ?_) s)) rfl next
    refine .trans (Piece.pieces (.flow _ _ ?_)) (markFlowReady_quiet ..).pieces
    exact ⟨rfl, rfl, .inr (configureFlowStatus_ok ok), by simp [configuredFlow]⟩
  | enableFlow tag flow =>
    refine Made.of_next (.inl (takeCommand_pieces (fun u run => shortCommand_pieces fun ok => ?_) s)) rfl next
    exact .trans (setFlowState_piece _ .enabled (by simp)).pieces (markFlowReady_quiet ..).pieces
  | disableFlow tag flow =>
    refine Made.of_next (.inl (takeCommand_pieces (fun u run => shortCommand_pieces fun ok => ?_) s)) rfl next
    exact .trans (setFlowState_piece _ .disabled (by simp)).pieces (markFlowReady_quiet ..).pieces
  | flushFlow tag flow =>
    exact (takeCommand_pieces (fun u run => flushFlow_pieces tag _ run) s).made.of_next rfl next
  | queryFlow tag flow =>
    refine Made.of_next (.inl (takeCommand_pieces (fun u run => ?_) s)) rfl next
    split
    · exact (adminComplete_quiet ..).pieces
    · exact (adminComplete_quiet ..).pieces
  | enableLink tag l k =>
    exact (takeCommand_pieces (fun u _ => (enableLink_quiet tag _ _ u).pieces) s).made.of_next rfl next
  | disableLink tag l =>
    exact (takeCommand_pieces (fun u _ => (disableLink_quiet tag _ u).pieces) s).made.of_next rfl next
  | setClassMap tag l mask lanes =>
    refine Made.of_next (.inl (takeCommand_pieces (fun u run => shortCommand_pieces fun ok => ?_) s)) rfl next
    exact (Quiet.of_blocks (by simp)).pieces
  | queryLink tag l =>
    refine Made.of_next (.inl (takeCommand_pieces (fun u run => ?_) s)) rfl next
    split
    · exact (adminComplete_quiet ..).pieces
    · exact (adminComplete_quiet ..).pieces
  | writeCalendar tag l start count blank entries =>
    refine Made.of_next (.inl (takeCommand_pieces (fun u run => shortCommand_pieces fun ok => ?_) s)) rfl next
    exact (Quiet.of_blocks (by simp)).pieces
  | activateCalendar tag l =>
    exact (takeCommand_pieces (fun u _ => activateCalendar_pieces tag _ u) s).made.of_next rfl next
  | setErrorPolicy tag threshold =>
    refine Made.of_next (.inl (takeCommand_pieces (fun u run => shortCommand_pieces fun ok => ?_) s)) rfl next
    exact (onEc_quiet (by rfl)).pieces
  | queryPool tag =>
    exact (takeCommand_pieces (fun u _ => (adminComplete_quiet ..).pieces) s).made.of_next rfl next
  | unknownCommand tag kind =>
    exact (takeCommand_pieces (fun u _ => (adminComplete_quiet ..).pieces) s).made.of_next rfl next
  | ready l a b c d =>
    refine Made.of_next (.inl ?_) rfl next
    split
    · exact bringUp_pieces ..
    · exact protocolError_pieces ..
  | credit l lane n =>
    refine Made.of_next (.inl ?_) rfl next
    split
    · exact .ite fun guard => takeCredit_pieces l _ _ guard.1
    · exact protocolError_pieces ..
  | down l x =>
    refine Made.of_next (.inl (.ite fun run => ?_)) rfl next
    split
    · exact failLinkEvent_pieces l _ run
    · exact downInDrain_pieces l run
    all_goals exact .refl s
  | malformedMessage l => exact (protocolError_pieces l s).made.of_next rfl next
  | offerTimerExpiry l =>
    exact Made.of_next (.inl (.ite fun _ => (Quiet.of_blocks (by simp)).pieces)) rfl next
  | linkUpTimerExpiry l =>
    exact Made.of_next (.inl (.ite fun _ => (Quiet.of_blocks (by simp)).pieces)) rfl next
  | cellSent l us => exact ((struck us).pieces.trans (cellSent_pieces l (strike us s))).made.of_next rfl next
  | underrunTimerExpiry l =>
    refine Made.of_next (.inl ?_) rfl next
    split
    case h_1 => exact .refl s
    case h_2 z _ => exact .ite fun guard => abortEvent_pieces l _ guard.1
  | abortOrder l r => exact (abortOrder_pieces l r s).made.of_next rfl next
  | holdoffTimerExpiry n =>
    refine Made.of_next (.inl (.ite fun guard => ?_)) rfl next
    refine .trans (Piece.pieces (.completions n _ (by simp [guard.1]) ?_)) (emit_quiet ..).pieces
    exact ⟨rfl, rfl, rfl, rfl, rfl⟩
  | correctionReport m =>
    refine Made.of_next (.inl ((takeReport_quiet (.correction m) s).pieces.trans ?_)) rfl next
    split
    case h_1 => exact (countCorrection_quiet ..).pieces
    case h_2 => exact (countCorrection_quiet ..).pieces
    all_goals exact .refl _
  | cellDataErrorReport l cell =>
    refine Made.of_next (.inl ((takeReport_quiet (.cellData l cell) s).pieces.trans ?_)) rfl next
    split
    case h_1 => exact (raiseNotice_quiet ..).pieces
    case h_2 => exact (raiseNotice_quiet ..).pieces
    all_goals exact .refl _
  | fatalReport cause =>
    refine Made.of_next (.inl ((takeReport_quiet (.fatal cause) s).pieces.trans ?_)) rfl next
    split
    case h_1 => exact contain_pieces ..
    case h_2 => exact (onEc_quiet (by rfl)).pieces
    case h_3 => exact (onEc_quiet (by rfl)).pieces
    all_goals exact .refl _
  | selfResetCompletion => exact Made.of_next (.inl (.ite fun _ => completeSelfReset_pieces s)) rfl next
  | functionResetCompletion =>
    exact Made.of_next (.inl (.ite fun _ => (completeFunctionReset_piece s).pieces)) rfl next
  | flushEnd f => exact Made.of_next (.inl (.ite fun _ => endFlush_pieces f s)) rfl next
  | deletionEnd n => exact Made.of_next (.inl (.ite fun run => endDeletion_pieces n run)) rfl next
  | drainEnd l => exact Made.of_next (.inl (.ite fun _ => (endDrain_quiet l s).pieces)) rfl next
  | activationApply l => exact Made.of_next (.inl (.ite fun _ => (applyActivation_quiet l s).pieces)) rfl next

end Sys2Proof.Proofs.Datapath

/-! What the operations that change several tables at once read back as: completions, releases, retirements, admissions
and the ends of descriptor reads. -/

namespace Sys2Proof.Proofs.Readings

open Sys2Proof Sys2Proof.Machine

/-! ### Completions -/

/-- A completion ring's context after a record was counted for its interrupt (R127). -/
def coalesced (c : CqContext) : CqContext :=
  if c.threshold ≤ c.pending + 1 then { c with pending := 0, timer := none }
  else { c with
    pending := c.pending + 1, timer := if c.pending = 0 ∧ 0 < c.holdoff then some c.holdoff else c.timer }

/-- A completion ring's context after a record was written at its tail (R122). -/
def recorded (c : CqContext) : CqContext :=
  { c with
    tail := advance c.size c.tail, phase := if c.tail + 1 = c.size then !c.phase else c.phase, reserved := c.reserved - 1 }

theorem coalesced_ledger (c : CqContext) : Datapath.sameLedger c (coalesced c) := by
  unfold coalesced
  split <;> exact ⟨rfl, rfl, rfl, rfl, rfl⟩

theorem coalesce_cq (n k : Nat) (s : State) :
    (coalesce n s).cq k = if k = n then coalesced (s.cq n) else s.cq k := by
  unfold coalesce coalesced
  by_cases full : (s.cq n).threshold ≤ (s.cq n).pending + 1
  · simp [full]
  · have first : (s.cq n).pending + 1 = 1 ↔ (s.cq n).pending = 0 := by omega
    simp only [full, if_false, first]
    split <;> exact State.cq_setCq ..

@[simp] theorem writeCompletion_cq (n : Nat) (tag : BitVec 32) (st : FrameStatus) (sub : Subcode) (cut : Bool) (k : Nat)
    (s : State) (m : Nat) : (writeCompletion n tag st sub cut k s).cq m =
      if m = (s.sq n).cq then coalesced (recorded (s.cq (s.sq n).cq)) else s.cq m := by
  unfold writeCompletion
  rw [coalesce_cq]
  by_cases same : m = (s.sq n).cq
  · simp [same, recorded]
  · simp [same]

@[simp] theorem writeCompletion_reads (n : Nat) (tag : BitVec 32) (st : FrameStatus) (sub : Subcode) (cut : Bool)
    (k : Nat) (s : State) :
    (∀ m, (writeCompletion n tag st sub cut k s).frame m = s.frame m) ∧
    (∀ m, (writeCompletion n tag st sub cut k s).flow m = s.flow m) ∧
    (∀ m, (writeCompletion n tag st sub cut k s).linkEntry m = s.linkEntry m) ∧
    (∀ m o, (writeCompletion n tag st sub cut k s).cellByte m o = s.cellByte m o) ∧
    (∀ m, (writeCompletion n tag st sub cut k s).sq m = s.sq m) ∧
    (∀ m, (writeCompletion n tag st sub cut k s).slot m = s.slot m) ∧
    (∀ m, (writeCompletion n tag st sub cut k s).link m = s.link m) ∧
    (∀ m, (writeCompletion n tag st sub cut k s).sched m = s.sched m) :=
  ⟨fun _ => State.frame_congr _ _ _ (by simp), fun _ => State.flow_congr _ _ _ (by simp),
    fun _ => State.linkEntry_congr _ _ _ (by simp), fun _ _ => State.cellByte_congr _ _ _ _ (by simp),
    fun _ => State.sq_congr _ _ _ (by simp), fun _ => State.slot_congr _ _ _ (by simp),
    fun _ => State.link_congr _ _ _ (by simp), fun _ => State.sched_congr _ _ _ (by simp)⟩

/-! ### Counts of a submission ring -/

@[simp] theorem lowerInFlight_sq (n : Nat) (s : State) (m : Nat) : (lowerInFlight n s).sq m =
    if m = n then { s.sq n with inFlight := (s.sq n).inFlight - 1 } else s.sq m := by
  simp [lowerInFlight]

@[simp] theorem lowerInFlight_reads (n : Nat) (s : State) :
    (∀ m, (lowerInFlight n s).frame m = s.frame m) ∧ (∀ m, (lowerInFlight n s).flow m = s.flow m) ∧
    (∀ m, (lowerInFlight n s).linkEntry m = s.linkEntry m) ∧ (∀ m, (lowerInFlight n s).slot m = s.slot m) ∧
    (∀ m, (lowerInFlight n s).cq m = s.cq m) ∧ (∀ m, (lowerInFlight n s).link m = s.link m) ∧
    (∀ m, (lowerInFlight n s).sched m = s.sched m) ∧ (lowerInFlight n s).dfu.held = s.dfu.held ∧
    (lowerInFlight n s).dfu.slots = s.dfu.slots ∧ (lowerInFlight n s).dfu.lastRing = s.dfu.lastRing :=
  ⟨fun _ => rfl, fun _ => rfl, fun _ => rfl, fun _ => rfl, fun _ => rfl, fun _ => rfl, fun _ => rfl, rfl, rfl, rfl⟩

@[simp] theorem markReady_reads (p : HeldEntry → Bool) (s : State) :
    (∀ m, (markReady p s).frame m = s.frame m) ∧ (∀ m, (markReady p s).flow m = s.flow m) ∧
    (∀ m, (markReady p s).linkEntry m = s.linkEntry m) ∧ (∀ m, (markReady p s).slot m = s.slot m) ∧
    (∀ m, (markReady p s).sq m = s.sq m) ∧ (∀ m, (markReady p s).cq m = s.cq m) ∧
    (∀ m, (markReady p s).link m = s.link m) ∧ (∀ m, (markReady p s).sched m = s.sched m) :=
  ⟨fun _ => rfl, fun _ => rfl, fun _ => rfl, fun _ => rfl, fun _ => rfl, fun _ => rfl, fun _ => rfl, fun _ => rfl⟩

@[simp] theorem markAllReady_reads (s : State) :
    (∀ m, (markAllReady s).frame m = s.frame m) ∧ (∀ m, (markAllReady s).flow m = s.flow m) ∧
    (∀ m, (markAllReady s).linkEntry m = s.linkEntry m) ∧ (∀ m, (markAllReady s).slot m = s.slot m) ∧
    (∀ m, (markAllReady s).sq m = s.sq m) ∧ (∀ m, (markAllReady s).cq m = s.cq m) ∧
    (∀ m, (markAllReady s).link m = s.link m) ∧ (∀ m, (markAllReady s).sched m = s.sched m) := markReady_reads _ s

@[simp] theorem clearHeld_sq (n : Nat) (s : State) (m : Nat) :
    (clearHeld n s).sq m = if m = n then { s.sq n with held := none } else s.sq m := by
  show ((s.setSq n _).sq m) = _
  simp

@[simp] theorem clearHeld_reads (n : Nat) (s : State) :
    (∀ m, (clearHeld n s).frame m = s.frame m) ∧ (∀ m, (clearHeld n s).flow m = s.flow m) ∧
    (∀ m, (clearHeld n s).linkEntry m = s.linkEntry m) ∧ (∀ m, (clearHeld n s).slot m = s.slot m) ∧
    (∀ m, (clearHeld n s).cq m = s.cq m) ∧ (∀ m, (clearHeld n s).link m = s.link m) ∧
    (∀ m, (clearHeld n s).sched m = s.sched m) ∧ (∀ m, (clearHeld n s).read m = s.read m) :=
  ⟨fun _ => rfl, fun _ => rfl, fun _ => rfl, fun _ => rfl, fun _ => rfl, fun _ => rfl, fun _ => rfl, fun _ => rfl⟩

@[simp] theorem takeHead_sq (n : Nat) (s : State) (m : Nat) : (takeHead n s).sq m = if m = n then
    { s.sq n with head := advance (s.sq n).size (s.sq n).head, reading := false } else s.sq m := by
  simp [takeHead]

@[simp] theorem takeHead_reads (n : Nat) (s : State) :
    (∀ m, (takeHead n s).frame m = s.frame m) ∧ (∀ m, (takeHead n s).flow m = s.flow m) ∧
    (∀ m, (takeHead n s).linkEntry m = s.linkEntry m) ∧ (∀ m, (takeHead n s).slot m = s.slot m) ∧
    (∀ m, (takeHead n s).cq m = s.cq m) ∧ (∀ m, (takeHead n s).link m = s.link m) ∧
    (∀ m, (takeHead n s).sched m = s.sched m) ∧ (∀ m, (takeHead n s).read m = s.read m) :=
  ⟨fun _ => rfl, fun _ => rfl, fun _ => rfl, fun _ => rfl, fun _ => rfl, fun _ => rfl, fun _ => rfl, fun _ => rfl⟩

@[simp] theorem holdDescriptor_sq (n : Nat) (h : HeldCopy) (s : State) (m : Nat) :
    (holdDescriptor n h s).sq m = if m = n then { s.sq n with held := some h } else s.sq m := by
  show ((s.setSq n _).sq m) = _
  simp

@[simp] theorem holdDescriptor_reads (n : Nat) (h : HeldCopy) (s : State) :
    (∀ m, (holdDescriptor n h s).frame m = s.frame m) ∧ (∀ m, (holdDescriptor n h s).flow m = s.flow m) ∧
    (∀ m, (holdDescriptor n h s).linkEntry m = s.linkEntry m) ∧ (∀ m, (holdDescriptor n h s).slot m = s.slot m) ∧
    (∀ m, (holdDescriptor n h s).cq m = s.cq m) ∧ (∀ m, (holdDescriptor n h s).link m = s.link m) :=
  ⟨fun _ => rfl, fun _ => rfl, fun _ => rfl, fun _ => rfl, fun _ => rfl, fun _ => rfl⟩

@[simp] theorem completeUnadmitted_sq (n : Nat) (tag : BitVec 32) (st : FrameStatus) (sub : Subcode) (s : State) (m : Nat) :
    (completeUnadmitted n tag st sub s).sq m =
      if m = n then { s.sq n with inFlight := (s.sq n).inFlight - 1 } else s.sq m := by
  simp [completeUnadmitted]

@[simp] theorem completeUnadmitted_cq (n : Nat) (tag : BitVec 32) (st : FrameStatus) (sub : Subcode) (s : State) (m : Nat) :
    (completeUnadmitted n tag st sub s).cq m =
      if m = (s.sq n).cq then coalesced (recorded (s.cq (s.sq n).cq)) else s.cq m := by
  simp [completeUnadmitted]

@[simp] theorem completeUnadmitted_reads (n : Nat) (tag : BitVec 32) (st : FrameStatus) (sub : Subcode) (s : State) :
    (∀ m, (completeUnadmitted n tag st sub s).frame m = s.frame m) ∧
    (∀ m, (completeUnadmitted n tag st sub s).flow m = s.flow m) ∧
    (∀ m, (completeUnadmitted n tag st sub s).linkEntry m = s.linkEntry m) ∧
    (∀ m, (completeUnadmitted n tag st sub s).slot m = s.slot m) ∧
    (∀ m, (completeUnadmitted n tag st sub s).link m = s.link m) ∧
    (∀ m, (completeUnadmitted n tag st sub s).sched m = s.sched m) := by
  simp [completeUnadmitted]

@[simp] theorem releaseRead_sq (i n : Nat) (s : State) (m : Nat) : (releaseRead i n s).sq m =
    if m = n then { s.sq n with inFlight := (s.sq n).inFlight - 1, reading := false } else s.sq m := by
  have reserved : ∀ k, (cqRelease (s.sq n).cq s).sq k = s.sq k := fun _ => rfl
  by_cases same : m = n
  · simp [releaseRead, same, reserved]
  · simp [releaseRead, same, reserved]

@[simp] theorem releaseRead_cq (i n : Nat) (s : State) (m : Nat) : (releaseRead i n s).cq m =
    if m = (s.sq n).cq then { s.cq (s.sq n).cq with reserved := (s.cq (s.sq n).cq).reserved - 1 } else s.cq m := by
  simp [releaseRead, cqRelease]

@[simp] theorem releaseRead_slot (i n : Nat) (s : State) (j : Nat) :
    (releaseRead i n s).slot j = if j = i then .idle else s.slot j := by
  simp only [releaseRead, State.slot_setSlot]
  rfl

@[simp] theorem releaseRead_reads (i n : Nat) (s : State) :
    (∀ m, (releaseRead i n s).frame m = s.frame m) ∧ (∀ m, (releaseRead i n s).flow m = s.flow m) ∧
    (∀ m, (releaseRead i n s).linkEntry m = s.linkEntry m) ∧ (∀ m, (releaseRead i n s).link m = s.link m) ∧
    (∀ m, (releaseRead i n s).read m = s.read m) :=
  ⟨fun _ => rfl, fun _ => rfl, fun _ => rfl, fun _ => rfl, fun _ => rfl⟩

@[simp] theorem grantRead_sq (i n : Nat) (s : State) (m : Nat) : (grantRead i n s).sq m =
    if m = n then { s.sq n with inFlight := (s.sq n).inFlight + 1, reading := true } else s.sq m := by
  show ((cqReserve (s.sq n).cq s).setSq n _).sq m = _
  rw [State.sq_setSq]
  rfl

@[simp] theorem grantRead_cq (i n : Nat) (s : State) (m : Nat) : (grantRead i n s).cq m =
    if m = (s.sq n).cq then { s.cq (s.sq n).cq with reserved := (s.cq (s.sq n).cq).reserved + 1 } else s.cq m :=
  State.cq_setCq ..

@[simp] theorem grantRead_slot (i n : Nat) (s : State) (j : Nat) :
    (grantRead i n s).slot j = if j = i then .descRead n (s.sq n).head else s.slot j := by
  have slots : (grantRead i n s).dfu.slots = tableSet slotUnlisted s.dfu.slots i (.descRead n (s.sq n).head) := rfl
  rw [State.slot, slots, tableGet_set]
  rfl

@[simp] theorem grantRead_reads (i n : Nat) (s : State) :
    (∀ m, (grantRead i n s).frame m = s.frame m) ∧ (∀ m, (grantRead i n s).flow m = s.flow m) ∧
    (∀ m, (grantRead i n s).linkEntry m = s.linkEntry m) ∧ (∀ m, (grantRead i n s).link m = s.link m) :=
  ⟨fun _ => rfl, fun _ => rfl, fun _ => rfl, fun _ => rfl⟩

/-! ### Releases -/

@[simp] theorem releaseCells_linkEntry (f : FrameRecord) (s : State) (c : Nat) : (releaseCells f s).linkEntry c =
    if s.bm.freeTail = some c then some f.firstCell else s.linkEntry c := by
  unfold releaseCells
  cases tail : s.bm.freeTail with
  | none => simp [State.linkEntry]
  | some t =>
    show (s.setLinkEntry t (some f.firstCell)).linkEntry c = _
    simp [eq_comm]

@[simp] theorem releaseCells_bm (f : FrameRecord) (s : State) :
    (releaseCells f s).bm.freeHead = (if s.bm.freeTail = none then some f.firstCell else s.bm.freeHead) ∧
    (releaseCells f s).bm.freeTail = some f.lastCell ∧
    (releaseCells f s).bm.freeCount = s.bm.freeCount + f.cellCount ∧
    (releaseCells f s).bm.frames = s.bm.frames ∧ (releaseCells f s).bm.flows = s.bm.flows ∧
    (releaseCells f s).bm.freeRecords = s.bm.freeRecords ∧ (releaseCells f s).bm.cells = s.bm.cells ∧
    (releaseCells f s).bm.fetchEnds = s.bm.fetchEnds ∧ (releaseCells f s).bm.cellEcc = s.bm.cellEcc ∧
    (releaseCells f s).bm.frameEcc = s.bm.frameEcc := by
  unfold releaseCells
  cases s.bm.freeTail <;> simp

@[simp] theorem releaseCells_reads (f : FrameRecord) (s : State) :
    (∀ m, (releaseCells f s).frame m = s.frame m) ∧ (∀ m, (releaseCells f s).flow m = s.flow m) ∧
    (∀ m, (releaseCells f s).sq m = s.sq m) ∧ (∀ m, (releaseCells f s).slot m = s.slot m) ∧
    (∀ m, (releaseCells f s).cq m = s.cq m) ∧ (∀ m, (releaseCells f s).link m = s.link m) ∧
    (∀ m, (releaseCells f s).sched m = s.sched m) :=
  ⟨fun _ => State.frame_congr _ _ _ (by simp), fun _ => State.flow_congr _ _ _ (by simp),
    fun _ => State.sq_congr _ _ _ (by simp), fun _ => State.slot_congr _ _ _ (by simp),
    fun _ => State.cq_congr _ _ _ (by simp), fun _ => State.link_congr _ _ _ (by simp),
    fun _ => State.sched_congr _ _ _ (by simp)⟩

@[simp] theorem releaseRecord_frame' (r : Nat) (s : State) (q : Nat) :
    (releaseRecord r s).frame q = if q = r then FrameRecord.reset else s.frame q := by
  show (s.setFrame r FrameRecord.reset).frame q = _
  simp

@[simp] theorem releaseRecord_bm (r : Nat) (s : State) :
    (releaseRecord r s).bm.freeRecords = s.bm.freeRecords ++ [r] ∧ (releaseRecord r s).bm.freeHead = s.bm.freeHead ∧
    (releaseRecord r s).bm.freeTail = s.bm.freeTail ∧ (releaseRecord r s).bm.freeCount = s.bm.freeCount ∧
    (releaseRecord r s).bm.cells = s.bm.cells ∧ (releaseRecord r s).bm.links = s.bm.links ∧
    (releaseRecord r s).bm.flows = s.bm.flows ∧ (releaseRecord r s).bm.fetchEnds = s.bm.fetchEnds :=
  ⟨rfl, rfl, rfl, rfl, rfl, rfl, rfl, rfl⟩

@[simp] theorem releaseRecord_reads (r : Nat) (s : State) :
    (∀ m, (releaseRecord r s).flow m = s.flow m) ∧ (∀ m, (releaseRecord r s).linkEntry m = s.linkEntry m) ∧
    (∀ m, (releaseRecord r s).sq m = s.sq m) ∧ (∀ m, (releaseRecord r s).slot m = s.slot m) ∧
    (∀ m, (releaseRecord r s).cq m = s.cq m) ∧ (∀ m, (releaseRecord r s).link m = s.link m) ∧
    (∀ m, (releaseRecord r s).sched m = s.sched m) :=
  ⟨fun _ => rfl, fun _ => rfl, fun _ => rfl, fun _ => rfl, fun _ => rfl, fun _ => rfl, fun _ => rfl⟩

/-! ### Retirement -/

/-- A flow's context after a record of it has retired (R115). -/
def retiredFlow (c : FlowContext) (f : FrameRecord) : FlowContext :=
  { c with
    held := c.held - f.cellCount, sent := if frameStatus f.cause = .sent then c.sent + 1 else c.sent,
    flushed := if f.cause = some .flushed then c.flushed + 1 else c.flushed }

@[simp] theorem retireRecord_frame' (r : Nat) (s : State) (q : Nat) :
    (retireRecord r s).frame q = if q = r then FrameRecord.reset else s.frame q := by
  simp [retireRecord]

@[simp] theorem retireRecord_flow (r : Nat) (s : State) (k : Nat) : (retireRecord r s).flow k =
    if k = (s.frame r).flow then retiredFlow (s.flow k) (s.frame r) else s.flow k := by
  by_cases same : k = (s.frame r).flow
  · simp [retireRecord, same, retiredFlow]
  · simp [retireRecord, same]

@[simp] theorem retireRecord_sq (r : Nat) (s : State) (n : Nat) : (retireRecord r s).sq n =
    if n = (s.frame r).ring then { s.sq n with inFlight := (s.sq n).inFlight - 1 } else s.sq n := by
  by_cases same : n = (s.frame r).ring
  · simp [retireRecord, same]
  · simp [retireRecord, same]

@[simp] theorem retireRecord_cq (r : Nat) (s : State) (n : Nat) : (retireRecord r s).cq n =
    if n = (s.sq (s.frame r).ring).cq then coalesced (recorded (s.cq n)) else s.cq n := by
  by_cases same : n = (s.sq (s.frame r).ring).cq
  · simp [retireRecord, same]
  · simp [retireRecord, same]

@[simp] theorem retireRecord_linkEntry (r : Nat) (s : State) (c : Nat) : (retireRecord r s).linkEntry c =
    if s.bm.freeTail = some c then some (s.frame r).firstCell else s.linkEntry c := by
  simp [retireRecord]

@[simp] theorem retireRecord_bm (r : Nat) (s : State) :
    (retireRecord r s).bm.freeHead = (if s.bm.freeTail = none then some (s.frame r).firstCell else s.bm.freeHead) ∧
    (retireRecord r s).bm.freeTail = some (s.frame r).lastCell ∧
    (retireRecord r s).bm.freeCount = s.bm.freeCount + (s.frame r).cellCount ∧
    (retireRecord r s).bm.freeRecords = s.bm.freeRecords ++ [r] ∧ (retireRecord r s).bm.cells = s.bm.cells ∧
    (retireRecord r s).bm.fetchEnds = s.bm.fetchEnds := by
  simp [retireRecord]

@[simp] theorem retireRecord_reads (r : Nat) (s : State) :
    (∀ m, (retireRecord r s).slot m = s.slot m) ∧ (∀ m, (retireRecord r s).link m = s.link m) ∧
    (∀ m, (retireRecord r s).sched m = s.sched m) := by
  simp [retireRecord]

@[simp] theorem leaveQueue_flow (r : Nat) (s : State) (k : Nat) : (leaveQueue r s).flow k =
    if k = (s.frame r).flow then { s.flow k with queue := (s.flow k).queue.erase r } else s.flow k := by
  by_cases same : k = (s.frame r).flow
  · simp [leaveQueue, same]
  · simp [leaveQueue, same]

@[simp] theorem leaveQueue_bm (r : Nat) (s : State) :
    (leaveQueue r s).bm.freeHead = s.bm.freeHead ∧ (leaveQueue r s).bm.freeTail = s.bm.freeTail ∧
    (leaveQueue r s).bm.freeCount = s.bm.freeCount ∧ (leaveQueue r s).bm.freeRecords = s.bm.freeRecords ∧
    (leaveQueue r s).bm.cells = s.bm.cells ∧ (leaveQueue r s).bm.frames = s.bm.frames ∧
    (leaveQueue r s).bm.fetchEnds = s.bm.fetchEnds :=
  ⟨rfl, rfl, rfl, rfl, rfl, rfl, rfl⟩

@[simp] theorem leaveQueue_reads (r : Nat) (s : State) :
    (∀ m, (leaveQueue r s).frame m = s.frame m) ∧ (∀ m, (leaveQueue r s).linkEntry m = s.linkEntry m) ∧
    (∀ m, (leaveQueue r s).sq m = s.sq m) ∧ (∀ m, (leaveQueue r s).slot m = s.slot m) ∧
    (∀ m, (leaveQueue r s).cq m = s.cq m) ∧ (∀ m, (leaveQueue r s).link m = s.link m) ∧
    (∀ m, (leaveQueue r s).sched m = s.sched m) :=
  ⟨fun _ => rfl, fun _ => rfl, fun _ => rfl, fun _ => rfl, fun _ => rfl, fun _ => rfl, fun _ => rfl⟩

/-! ### Admission -/

@[simp] theorem allocate_linkEntry (n : Nat) (s : State) (c : Nat) : (allocate n s).linkEntry c =
    if n < s.bm.freeCount ∧ c = (allocationCells s n).getLastD 0 then none else s.linkEntry c := by
  unfold allocate
  by_cases room : n < s.bm.freeCount
  · simp only [room, if_true, true_and, State.linkEntry_setLinkEntry]
    rfl
  · simp only [room, if_false, false_and]
    rfl

@[simp] theorem allocate_bm (n : Nat) (s : State) :
    (allocate n s).bm.freeHead =
      (if n < s.bm.freeCount then s.linkEntry ((allocationCells s n).getLastD 0) else none) ∧
    (allocate n s).bm.freeTail = (if n < s.bm.freeCount then s.bm.freeTail else none) ∧
    (allocate n s).bm.freeCount = s.bm.freeCount - n ∧ (allocate n s).bm.frames = s.bm.frames ∧
    (allocate n s).bm.flows = s.bm.flows ∧ (allocate n s).bm.freeRecords = s.bm.freeRecords ∧
    (allocate n s).bm.cells = s.bm.cells ∧ (allocate n s).bm.fetchEnds = s.bm.fetchEnds := by
  unfold allocate
  by_cases room : n < s.bm.freeCount <;> simp [room]

@[simp] theorem allocate_reads (n : Nat) (s : State) :
    (∀ m, (allocate n s).frame m = s.frame m) ∧ (∀ m, (allocate n s).flow m = s.flow m) ∧
    (∀ m, (allocate n s).sq m = s.sq m) ∧ (∀ m, (allocate n s).slot m = s.slot m) ∧
    (∀ m, (allocate n s).cq m = s.cq m) :=
  ⟨fun _ => State.frame_congr _ _ _ (by simp), fun _ => State.flow_congr _ _ _ (by simp),
    fun _ => State.sq_congr _ _ _ (by simp), fun _ => State.slot_congr _ _ _ (by simp),
    fun _ => State.cq_congr _ _ _ (by simp)⟩

@[simp] theorem admitRecord_frame' (n : Nat) (d : Descriptor) (need r : Nat) (s : State) (q : Nat) :
    (admitRecord n d need r s).frame q = if q = r then admittedRecord n d need ((allocationCells s need).headD 0)
      ((allocationCells s need).getLastD 0) else s.frame q := by
  have dropped : ∀ q, ((allocate need s).onBm fun b => { b with freeRecords := b.freeRecords.drop 1 }).frame q = s.frame q :=
    fun q => (State.frame_congr _ _ _ rfl).trans ((allocate_reads need s).1 q)
  simp only [admitRecord, State.setFlow_reads, State.frame_setFrame, dropped]

@[simp] theorem admitRecord_flow (n : Nat) (d : Descriptor) (need r : Nat) (s : State) (k : Nat) :
    (admitRecord n d need r s).flow k = if k = d.flow then
      { s.flow k with queue := (s.flow k).queue ++ [r], held := (s.flow k).held + need } else s.flow k := by
  have dropped : ∀ q, ((allocate need s).onBm fun b => { b with freeRecords := b.freeRecords.drop 1 }).flow q = s.flow q :=
    fun q => (State.flow_congr _ _ _ rfl).trans ((allocate_reads need s).2.1 q)
  by_cases same : k = d.flow
  · simp only [admitRecord, State.flow_setFlow, State.setFrame_reads, dropped, same, if_true]
  · simp only [admitRecord, State.flow_setFlow, State.setFrame_reads, dropped, same, if_false]

@[simp] theorem admitRecord_linkEntry (n : Nat) (d : Descriptor) (need r : Nat) (s : State) (c : Nat) :
    (admitRecord n d need r s).linkEntry c =
      if need < s.bm.freeCount ∧ c = (allocationCells s need).getLastD 0 then none else s.linkEntry c := by
  rw [← allocate_linkEntry]
  exact State.linkEntry_congr _ _ _ rfl

@[simp] theorem admitRecord_bm (n : Nat) (d : Descriptor) (need r : Nat) (s : State) :
    (admitRecord n d need r s).bm.freeHead =
      (if need < s.bm.freeCount then s.linkEntry ((allocationCells s need).getLastD 0) else none) ∧
    (admitRecord n d need r s).bm.freeTail = (if need < s.bm.freeCount then s.bm.freeTail else none) ∧
    (admitRecord n d need r s).bm.freeCount = s.bm.freeCount - need ∧
    (admitRecord n d need r s).bm.freeRecords = s.bm.freeRecords.drop 1 ∧
    (admitRecord n d need r s).bm.cells = s.bm.cells ∧ (admitRecord n d need r s).bm.fetchEnds = s.bm.fetchEnds := by
  simp [admitRecord]

@[simp] theorem admitRecord_reads (n : Nat) (d : Descriptor) (need r : Nat) (s : State) :
    (∀ m, (admitRecord n d need r s).sq m = s.sq m) ∧ (∀ m, (admitRecord n d need r s).slot m = s.slot m) ∧
    (∀ m, (admitRecord n d need r s).cq m = s.cq m) :=
  ⟨fun _ => State.sq_congr _ _ _ (by simp), fun _ => State.slot_congr _ _ _ (by simp),
    fun _ => State.cq_congr _ _ _ (by simp)⟩

end Sys2Proof.Proofs.Readings

/-! From the pieces to the step: what all pieces keep, every step keeps. -/

namespace Sys2Proof.Proofs.Steps

open Sys2Proof Sys2Proof.Machine Host Sys2Proof.Proofs.Datapath

/-- Every arm of `exec` answers a next state. -/
theorem exec_answers (c : Instr) (s : State) : ∃ t, exec c s = .next t := by
  cases c <;> exact ⟨_, rfl⟩

/-- A step idles, or carries out the front command with the rest of the queue. -/
theorem step_cases {s t : State} (next : step s = .next t) :
    t = s ∨ ∃ c rest, exec c { s with pending := rest } = .next t := by
  unfold step at next
  split at next
  · exact .inl (by injection next with same; exact same.symm)
  · next c rest _ => exact .inr ⟨c, rest, next⟩

/-- What no command breaks, and what does not read the queue of commands, no step breaks. -/
theorem step_keeps {L : State → Prop} (unread : ∀ s rest, L s → L { s with pending := rest })
    (kept : ∀ c s t, exec c s = .next t → L s → L t) {s t : State} (next : step s = .next t) (law : L s) : L t := by
  rcases step_cases next with rfl | ⟨c, rest, next⟩
  · exact law
  · exact kept c _ t next (unread s rest law)

theorem pieces_keep {L : State → Prop} (piece : ∀ s t, Piece s t → L s → L t) {s t : State} (h : Pieces s t) (law : L s) :
    L t := by
  induction h with
  | refl => exact law
  | tail _ last ih => exact piece _ _ last ih

theorem made_keeps {L : State → Prop} (piece : ∀ s t, Piece s t → L s → L t) (admits : ∀ s t, Admits s t → L s → L t)
    {s t : State} (h : Made s t) (law : L s) : L t := by
  rcases h with pieces | ⟨u, v, before, admitted, after⟩
  · exact pieces_keep piece pieces law
  · exact pieces_keep piece after (admits u v admitted (piece s u (.quiet before) law))

/-- A law that every piece and every admission keeps is kept by every step. -/
theorem step_keeps_of_made {L : State → Prop} (unread : ∀ s rest, L s → L { s with pending := rest })
    (piece : ∀ s t, Piece s t → L s → L t) (admits : ∀ s t, Admits s t → L s → L t) {s t : State}
    (next : step s = .next t) (law : L s) : L t :=
  step_keeps unread (fun _ _ _ next => made_keeps piece admits (exec_made next)) next law

/-! ### The queue of commands, the cell memory's form and the backlog -/

/-- Nothing a command is made of touches the queue of commands, the cell memory's form or the law of the backlog. -/
def settled (s t : State) : Prop :=
  t.pending = s.pending ∧ (s.memoryForm → t.memoryForm) ∧ (s.backlogLaw → t.backlogLaw)

theorem settled_of_blocks {s t : State} (h : t.pending = s.pending ∧ t.bm.cells = s.bm.cells ∧
    t.ec.backlog = s.ec.backlog) : settled s t := by
  obtain ⟨pending, cells, backlog⟩ := h
  exact ⟨pending, by simp [State.memoryForm, cells], by simp [State.backlogLaw, backlog]⟩

theorem settled_of_alike {s t : State} (h : Alike s t) : settled s t := ⟨h.pending, h.memory, h.backlog⟩

theorem settled_of_reset {s t : State} (bm : t.bm = BmBlock.reset) (pending : t.pending = s.pending)
    (backlog : s.backlogLaw → t.backlogLaw) : settled s t :=
  ⟨pending, fun _ => by rw [State.memoryForm, bm]; decide, backlog⟩

theorem piece_settled {s t : State} (h : Piece s t) : settled s t := by
  cases h with
  | quiet h => exact settled_of_alike h.toAlike
  | byte c o x => exact ⟨by simp, fun form => Memory.wf_setCellByte s c o x form, by simp [State.backlogLaw]⟩
  | start _ h => exact settled_of_alike h
  | halt h => exact settled_of_alike h
  | clear bm _ _ pending backlog => exact settled_of_reset bm pending backlog
  | _ => exact settled_of_blocks (by simp)

theorem admits_settled {s t : State} (h : Admits s t) : settled s t := by
  cases h <;> exact settled_of_blocks (by simp)

theorem made_settled {s t : State} (h : Made s t) : settled s t := by
  refine made_keeps (L := settled s) (fun u v piece law => ?_) (fun u v admits law => ?_) h ⟨rfl, id, id⟩
  · obtain ⟨pending, memory, backlog⟩ := piece_settled piece
    exact ⟨pending.trans law.1, memory ∘ law.2.1, backlog ∘ law.2.2⟩
  · obtain ⟨pending, memory, backlog⟩ := admits_settled admits
    exact ⟨pending.trans law.1, memory ∘ law.2.1, backlog ∘ law.2.2⟩

/-- Settles O1: the step is the arm of `exec` by definition, and idling is its other branch. -/
theorem stepRunsFrontCommand : Obligations.StepRunsFrontCommand :=
  ⟨fun _ _ => rfl, fun s empty => by simp [step, empty]⟩

/-- Settles O2: every arm answers, and no piece of a command touches the queue. -/
theorem commandsAnswerAndKeepQueue : Obligations.CommandsAnswerAndKeepQueue := by
  intro c s
  obtain ⟨t, next⟩ := exec_answers c s
  exact ⟨t, next, (made_settled (exec_made next)).1⟩

/-- Settles O3: `powerOn` answers the reset state, whose fields are the values of R171. -/
theorem powerOnGivesResetState : Obligations.PowerOnGivesResetState := by
  intro s
  exact ⟨{ State.reset with pending := s.pending }, rfl, rfl, fun _ _ => rfl, rfl, rfl, rfl, rfl, rfl, rfl, rfl, rfl, rfl, rfl,
    rfl, rfl, rfl, rfl, rfl⟩

end Sys2Proof.Proofs.Steps

/-! The free record list and the records in use (R8, R9): what each piece and each admission does to them, and to the
cell pool beside them. -/

namespace Sys2Proof.Proofs.Records

open Sys2Proof Sys2Proof.Machine Sys2Proof.Proofs.Datapath Sys2Proof.Proofs.Readings Sys2Proof.Proofs.Steps

/-! ### What a piece can do to the records -/

/-- A flow's share of the cells stands, within a cap that is lowered only where it holds none. -/
def keepsShare (c d : FlowContext) : Prop :=
  d.held = c.held ∧ (d.cap = c.cap ∨ c.held = 0 ∨ c.state = .unconfigured) ∧
    (d.state = .unconfigured → c.state = .unconfigured)

/-- The records in use, the free lists, the link table and the flows' shares of the cells stand. -/
structure Standing (s t : State) : Prop where
  same : ∀ q, sameFrame (s.frame q) (t.frame q)
  free : ∀ q, (t.frame q).state = .free ↔ (s.frame q).state = .free
  records : t.bm.freeRecords = s.bm.freeRecords
  linkEntry : ∀ c, t.linkEntry c = s.linkEntry c
  head : t.bm.freeHead = s.bm.freeHead
  tail : t.bm.freeTail = s.bm.freeTail
  count : t.bm.freeCount = s.bm.freeCount
  flows : ∀ f, keepsShare (s.flow f) (t.flow f)

/-- The record `r` returns to the free record list, and its cells to the free cell list (R6, R10). -/
structure Retires (s : State) (r : Nat) (t : State) : Prop where
  used : (s.frame r).state ≠ .free
  reset : t.frame r = FrameRecord.reset
  others : ∀ q, q ≠ r → t.frame q = s.frame q
  records : t.bm.freeRecords = s.bm.freeRecords ++ [r]
  linkEntry : ∀ c, t.linkEntry c = if s.bm.freeTail = some c then some (s.frame r).firstCell else s.linkEntry c
  head : t.bm.freeHead = if s.bm.freeTail = none then some (s.frame r).firstCell else s.bm.freeHead
  tail : t.bm.freeTail = some (s.frame r).lastCell
  count : t.bm.freeCount = s.bm.freeCount + (s.frame r).cellCount
  flows : ∀ f, (t.flow f).state = (s.flow f).state ∧ (t.flow f).cap = (s.flow f).cap ∧
    (t.flow f).held = (s.flow f).held - if (s.frame r).flow = f then (s.frame r).cellCount else 0

theorem keepsShare_refl (c : FlowContext) : keepsShare c c := ⟨rfl, .inl rfl, id⟩

theorem sameFrame_refl (f : FrameRecord) : sameFrame f f := ⟨rfl, rfl, rfl, rfl, rfl⟩

theorem Standing.of_frames {s t : State} (frames : ∀ q, t.frame q = s.frame q)
    (lists : t.bm.freeRecords = s.bm.freeRecords ∧ (∀ c, t.linkEntry c = s.linkEntry c) ∧ t.bm.freeHead = s.bm.freeHead ∧
      t.bm.freeTail = s.bm.freeTail ∧ t.bm.freeCount = s.bm.freeCount)
    (flows : ∀ f, keepsShare (s.flow f) (t.flow f)) : Standing s t := by
  obtain ⟨records, linkEntry, head, tail, count⟩ := lists
  exact ⟨fun q => by rw [frames]; exact sameFrame_refl _, fun q => by rw [frames], records, linkEntry, head, tail, count,
    flows⟩

theorem Standing.of_alike {s t : State} (h : Alike s t) : Standing s t :=
  .of_frames h.frame ⟨h.freeRecords, h.linkEntry, h.freeHead, h.freeTail, h.freeCount⟩ fun f => by
    rw [h.flow]
    exact keepsShare_refl _

/-- One record changes where it stands, and stays in use. -/
theorem Standing.of_record {s t : State} {r : Nat} {g : FrameRecord} (used : (s.frame r).state ≠ .free)
    (uses : g.state ≠ .free) (same : sameFrame (s.frame r) g)
    (frames : ∀ q, t.frame q = if q = r then g else s.frame q)
    (lists : t.bm.freeRecords = s.bm.freeRecords ∧ (∀ c, t.linkEntry c = s.linkEntry c) ∧ t.bm.freeHead = s.bm.freeHead ∧
      t.bm.freeTail = s.bm.freeTail ∧ t.bm.freeCount = s.bm.freeCount)
    (flows : ∀ f, keepsShare (s.flow f) (t.flow f)) : Standing s t where
  same q := by
    rw [frames]
    split
    · next at_r => exact at_r ▸ same
    · exact sameFrame_refl _
  free q := by
    rw [frames]
    split
    · next at_r => exact ⟨fun h => absurd h uses, fun h => absurd (at_r ▸ h) used⟩
    · rfl
  records := lists.1
  linkEntry := lists.2.1
  head := lists.2.2.1
  tail := lists.2.2.2.1
  count := lists.2.2.2.2
  flows := flows

theorem queued_used {f : FrameRecord} (h : queued f) : f.state ≠ .free := by
  rcases h with h | h | h <;> simp [h]

theorem apart_used {f : FrameRecord} (h : f.state = .closing ∨ f.state = .discarding) : f.state ≠ .free := by
  rcases h with h | h <;> simp [h]

theorem stays_used {s : State} {r : Nat} {g : FrameRecord} (used : (s.frame r).state ≠ .free) (h : stays s r g) :
    g.state ≠ .free := by
  rcases h with h | ⟨-, h⟩ | ⟨-, h, -⟩
  · exact h ▸ used
  all_goals simp [h]

/-- A record with the fields `g` beside those of its admission retires, from its queue or out of it. -/
theorem Retires.of_changed {s u : State} {r : Nat} {g : FrameRecord} (used : (s.frame r).state ≠ .free)
    (same : sameFrame (s.frame r) g) (frames : ∀ q, u.frame q = if q = r then g else s.frame q)
    (lists : u.bm.freeRecords = s.bm.freeRecords ∧ (∀ c, u.linkEntry c = s.linkEntry c) ∧ u.bm.freeHead = s.bm.freeHead ∧
      u.bm.freeTail = s.bm.freeTail ∧ u.bm.freeCount = s.bm.freeCount)
    (flows : ∀ f, (u.flow f).state = (s.flow f).state ∧ (u.flow f).cap = (s.flow f).cap ∧
      (u.flow f).held = (s.flow f).held) : Retires s r (retireRecord r u) := by
  obtain ⟨-, flow, count, first, last⟩ := same
  obtain ⟨records, links, head, tail, freeCount⟩ := lists
  have changed : u.frame r = g := by simp [frames]
  exact
    { used
      reset := by simp
      others := fun q apart => by simp [apart, frames]
      records := by simp [records]
      linkEntry := fun c => by simp [changed, tail, links, first]
      head := by simp [changed, tail, head, first]
      tail := by simp [changed, last]
      count := by simp [changed, freeCount, count]
      flows := fun f => by
        obtain ⟨state, cap, held⟩ := flows f
        by_cases own : f = (s.frame r).flow
        · simp [changed, flow, count, own ▸ state, own ▸ cap, own ▸ held, own, retiredFlow]
        · simp [changed, flow, own, Ne.symm own, state, cap, held] }

theorem standing_record {s : State} {r : Nat} {g : FrameRecord} (used : (s.frame r).state ≠ .free)
    (same : sameFrame (s.frame r) g) (within : stays s r g) : Standing s (s.setFrame r g) :=
  .of_record used (stays_used used within) same (by simp) (by simp) (by simp [keepsShare])

theorem standing_leave {s : State} {r : Nat} {g : FrameRecord} (from_queue : queued (s.frame r))
    (same : sameFrame (s.frame r) g) (apart : g.state = .closing ∨ g.state = .discarding) :
    Standing s (leaveQueue r (s.setFrame r g)) := by
  refine .of_record (queued_used from_queue) (apart_used apart) same (by simp) (by simp) fun f => ?_
  rw [leaveQueue_flow]
  split <;> exact keepsShare_refl _

theorem retires_queued {s : State} {r : Nat} {g : FrameRecord} (from_queue : queued (s.frame r))
    (same : sameFrame (s.frame r) g) : Retires s r (retireRecord r (leaveQueue r (s.setFrame r g))) := by
  refine .of_changed (queued_used from_queue) same (by simp) (by simp) fun f => ?_
  rw [leaveQueue_flow]
  split <;> exact ⟨rfl, rfl, rfl⟩

theorem retires_apart {s : State} {r : Nat} {g : FrameRecord}
    (apart : (s.frame r).state = .closing ∨ (s.frame r).state = .discarding) (same : sameFrame (s.frame r) g) :
    Retires s r (retireRecord r (s.setFrame r g)) :=
  .of_changed (apart_used apart) same (by simp) (by simp) (by simp)

/-- A piece leaves the records in use standing, retires one, or resets them all. -/
theorem piece_records {s t : State} (h : Piece s t) :
    Standing s t ∨ (∃ r, Retires s r t) ∨ t.bm = BmBlock.reset := by
  cases h with
  | quiet h => exact .inl (.of_alike h.toAlike)
  | start _ h => exact .inl (.of_alike h)
  | halt h => exact .inl (.of_alike h)
  | clear bm => exact .inr (.inr bm)
  | record r g used same within => exact .inl (standing_record used same within)
  | leave r g from_queue same apart => exact .inl (standing_leave from_queue same apart)
  | retireQueued r g _ from_queue same => exact .inr (.inl ⟨r, retires_queued from_queue same⟩)
  | retireApart r g _ apart same => exact .inr (.inl ⟨r, retires_apart apart same⟩)
  | flow n c same =>
    refine .inl (.of_frames (by simp) (by simp) fun f => ?_)
    rw [State.flow_setFlow]
    split
    · next own => exact own ▸ same.2
    · exact keepsShare_refl _
  | _ => exact .inl (.of_frames (by simp) (by simp) (by simp [keepsShare]))

/-! ### What an admission does -/

/-- The record `r` is admitted with `need` cells from the head of the free cell list (R5, R13). -/
structure Joins (s : State) (n : Nat) (d : Descriptor) (need r : Nat) (t : State) : Prop where
  first : s.bm.freeRecords.head? = some r
  room : need ≤ s.bm.freeCount
  enabled : (s.flow d.flow).state = .enabled
  within : (s.flow d.flow).held + need ≤ (s.flow d.flow).cap
  bm : t.bm = (admitRecord n d need r s).bm

theorem Joins.frame {s t : State} {n : Nat} {d : Descriptor} {need r : Nat} (h : Joins s n d need r t) (q : Nat) :
    t.frame q = if q = r then admittedRecord n d need ((allocationCells s need).headD 0)
      ((allocationCells s need).getLastD 0) else s.frame q := by
  rw [State.frame_congr _ t q (congrArg BmBlock.frames h.bm), admitRecord_frame']

theorem Joins.flow {s t : State} {n : Nat} {d : Descriptor} {need r : Nat} (h : Joins s n d need r t) (k : Nat) :
    t.flow k = if k = d.flow then
      { s.flow k with queue := (s.flow k).queue ++ [r], held := (s.flow k).held + need } else s.flow k := by
  rw [State.flow_congr _ t k (congrArg BmBlock.flows h.bm), admitRecord_flow]

theorem Joins.linkEntry {s t : State} {n : Nat} {d : Descriptor} {need r : Nat} (h : Joins s n d need r t) (c : Nat) :
    t.linkEntry c = if need < s.bm.freeCount ∧ c = (allocationCells s need).getLastD 0 then none else s.linkEntry c := by
  rw [State.linkEntry_congr _ t c (congrArg BmBlock.links h.bm), admitRecord_linkEntry]

/-- Where an admission's cell need comes from: a descriptor read that passed R52, or a held copy. -/
def needed (s : State) (d : Descriptor) (need : Nat) : Prop :=
  (1 ≤ d.length ∧ need = cellNeed d.length) ∨ ∃ n h, (s.sq n).held = some h ∧ d = h.descriptor ∧ need = h.need

theorem admits_joins {s t : State} (h : Admits s t) : ∃ n d need r, Joins s n d need r t ∧ needed s d need := by
  cases h with
  | fresh i n k d gs r _ _ _ length enabled within room first =>
    exact ⟨n, d, _, r, ⟨first, room, enabled, within, rfl⟩, .inl ⟨length, rfl⟩⟩
  | retried i n h gs r _ _ held enabled within room first =>
    exact ⟨n, _, _, r, ⟨first, room, enabled, within, rfl⟩, .inr ⟨n, h, held, rfl, rfl⟩⟩

/-! ### The law of the free record list (R8, R9) -/

theorem recordLaw_of_reset {t : State} (bm : t.bm = BmBlock.reset) : t.recordLaw := by
  have free : ∀ r, (t.frame r).state = .free := fun r => by
    have frames : t.bm.frames = [] := by rw [bm]; rfl
    rw [State.frame, frames]
    rfl
  have listed : t.bm.freeRecords = List.range recordTotal := by rw [bm, BmBlock.reset]
  refine ⟨?_, fun r => ?_, fun r _ => free r⟩
  · rw [listed]
    exact List.nodup_range
  · rw [listed, List.mem_range]
    simp [free, recordTotal]

theorem recordLaw_of_standing {s t : State} (h : Standing s t) (law : s.recordLaw) : t.recordLaw := by
  obtain ⟨nodup, free, beyond⟩ := law
  simp only [State.recordLaw, h.records, h.free]
  exact ⟨nodup, free, beyond⟩

theorem recordLaw_of_retires {s t : State} {r : Nat} (h : Retires s r t) (law : s.recordLaw) : t.recordLaw := by
  obtain ⟨nodup, free, beyond⟩ := law
  have small : r < 2048 := Nat.lt_of_not_le fun large => h.used (beyond r large)
  have unlisted : r ∉ s.bm.freeRecords := fun listed => h.used ((free r).mp listed).2
  refine ⟨?_, fun q => ?_, fun q large => ?_⟩
  · rw [h.records]
    exact List.nodup_append.mpr ⟨nodup, by simp, by simpa using fun a (listed : a ∈ _) (same : a = r) => unlisted (same ▸ listed)⟩
  · rw [h.records, List.mem_append, List.mem_singleton, free]
    by_cases same : q = r
    · simp [same, small, h.reset, FrameRecord.reset]
    · simp [same, h.others q same]
  · rw [h.others q (by omega)]
    exact beyond q large

theorem recordLaw_of_joins {s t : State} {n : Nat} {d : Descriptor} {need r : Nat} (h : Joins s n d need r t)
    (law : s.recordLaw) : t.recordLaw := by
  obtain ⟨nodup, free, beyond⟩ := law
  obtain ⟨rest, listed⟩ : ∃ rest, s.bm.freeRecords = r :: rest := List.head?_eq_some_iff.mp h.first
  have small : r < 2048 := ((free r).mp (by simp [listed])).1
  have left : t.bm.freeRecords = rest := by simp [h.bm, listed]
  rw [listed] at nodup
  refine ⟨?_, fun q => ?_, fun q large => ?_⟩
  · rw [left]; exact nodup.of_cons
  · rw [left, h.frame]
    by_cases same : q = r
    · simpa [same, admittedRecord] using (List.nodup_cons.mp nodup).1
    · simpa [same, listed] using free q
  · rw [h.frame, if_neg (by omega)]
    exact beyond q large

theorem piece_recordLaw {s t : State} (h : Piece s t) (law : s.recordLaw) : t.recordLaw := by
  rcases piece_records h with standing | ⟨r, retires⟩ | reset
  · exact recordLaw_of_standing standing law
  · exact recordLaw_of_retires retires law
  · exact recordLaw_of_reset reset

theorem admits_recordLaw {s t : State} (h : Admits s t) (law : s.recordLaw) : t.recordLaw := by
  obtain ⟨n, d, need, r, joins, -⟩ := admits_joins h
  exact recordLaw_of_joins joins law

/-- Settles O53: every piece and every admission keeps the law. -/
theorem recordLawKept : Obligations.RecordLawKept := fun _ _ law next =>
  step_keeps_of_made (fun _ _ law => law) (fun _ _ => piece_recordLaw) (fun _ _ => admits_recordLaw) next law

end Sys2Proof.Proofs.Records

/-! The law of the cell pool (R2 to R5): the free cell list and the chains of the records in use as lists of cells that
the link table joins, and what a retirement and an admission do to them. -/

namespace Sys2Proof.Proofs.CellPool

open Sys2Proof Sys2Proof.Machine Sys2Proof.Proofs.Datapath Sys2Proof.Proofs.Readings Sys2Proof.Proofs.Steps
open Sys2Proof.Proofs.Records

/-! ### Lists of cells that the link table joins -/

/-- The link table leads from the cell `a` to the cell `b`. -/
def follows (s : State) (a b : Nat) : Prop := s.linkEntry a = some b

theorem chainFrom_succ (s : State) (n c : Nat) :
    chainFrom s (n + 1) c = c :: (match s.linkEntry c with | none => [] | some d => chainFrom s n d) := rfl

theorem chainFrom_head (s : State) {n : Nat} (c : Nat) (some_cell : 0 < n) : (chainFrom s n c).head? = some c := by
  cases n with
  | zero => omega
  | succ n => rfl

theorem chainFrom_linked (s : State) (n c : Nat) : (chainFrom s n c).IsChain (follows s) := by
  induction n generalizing c with
  | zero => exact .nil
  | succ n ih =>
    rw [chainFrom_succ]
    cases entry : s.linkEntry c with
    | none => exact .singleton c
    | some d =>
      cases n with
      | zero => exact .singleton c
      | succ n => exact .cons_cons entry (ih d)

theorem chainFrom_of_linked {s : State} {L : List Nat} {c : Nat} (linked : (c :: L).IsChain (follows s)) :
    chainFrom s (L.length + 1) c = c :: L := by
  induction L generalizing c with
  | nil => rw [List.length_nil, chainFrom_succ]; cases s.linkEntry c <;> rfl
  | cons d L ih =>
    obtain ⟨entry, rest⟩ := List.isChain_cons_cons.mp linked
    rw [List.length_cons, chainFrom_succ, show s.linkEntry c = some d from entry]
    exact congrArg (c :: ·) (ih rest)

theorem chainFrom_take (s : State) {m n : Nat} (shorter : m ≤ n) (c : Nat) :
    (chainFrom s n c).take m = chainFrom s m c := by
  induction m generalizing n c with
  | zero => rfl
  | succ m ih =>
    obtain ⟨n, rfl⟩ := Nat.exists_eq_add_of_le' (Nat.lt_of_lt_of_le m.succ_pos shorter)
    rw [chainFrom_succ, chainFrom_succ, List.take_succ_cons]
    cases s.linkEntry c with
    | none => simp
    | some d => exact congrArg (c :: ·) (ih (by omega) d)

/-- `n` cells that the link table joins, from `head` to `tail`, whose entry holds END. -/
structure Run (s : State) (L : List Nat) (head tail : Option Nat) (n : Nat) : Prop where
  linked : L.IsChain (follows s)
  ended : ∀ c, tail = some c → s.linkEntry c = none
  head : 0 < n → L.head? = head
  tail : L.getLast? = tail
  length : L.length = n

/-- A run of cells is the chain that the link table gives from its head. -/
theorem Run.chainFrom {s : State} {L : List Nat} {c n : Nat} {tail : Option Nat} (h : Run s L (some c) tail n) :
    chainFrom s n c = L := by
  obtain ⟨linked, -, head, -, rfl⟩ := h
  cases L with
  | nil => rfl
  | cons d L =>
    obtain rfl : d = c := by simpa using head
    exact chainFrom_of_linked linked

theorem Run.mono {s t : State} {L : List Nat} {head tail : Option Nat} {n : Nat} (h : Run s L head tail n)
    (kept : ∀ a ∈ L, t.linkEntry a = s.linkEntry a) : Run t L head tail n where
  linked := h.linked.imp_of_mem_imp fun {a _} mem _ follow => (kept a mem).trans follow
  ended c last := (kept c (List.mem_of_getLast? (h.tail.trans last))).trans (h.ended c last)
  head := h.head
  tail := h.tail
  length := h.length

/-! ### The pool as lists of cells -/

/-- The free cell list `F` and the chains `C` of the records in use share out the cells. -/
structure Pool (s : State) (F : List Nat) (C : Nat → List Nat) : Prop where
  free : Run s F s.bm.freeHead s.bm.freeTail s.bm.freeCount
  chains : ∀ r ∈ s.inUse, 1 ≤ (s.frame r).cellCount ∧
    Run s (C r) (some (s.frame r).firstCell) (some (s.frame r).lastCell) (s.frame r).cellCount
  whole : (F ++ (s.inUse.map C).flatten).Perm (List.range 8192)

/-- A held copy's cell need is that of its length, and not 0 (R39). -/
def fits (h : HeldCopy) : Prop := 1 ≤ h.descriptor.length ∧ h.need = (h.descriptor.length + 255) / 256

def heldLaw (s : State) : Prop := ∀ n h, (s.sq n).held = some h → fits h

theorem Pool.freeCells {s : State} {F : List Nat} {C : Nat → List Nat} (h : Pool s F C) : s.freeCells = F := by
  have free := h.free
  unfold State.freeCells
  cases head : s.bm.freeHead with
  | some c => exact (head ▸ free : Run s F (some c) _ _).chainFrom
  | none =>
    cases F with
    | nil => rfl
    | cons c F => exact absurd (free.head (by rw [← free.length]; simp)) (by simp [head])

theorem Pool.chain {s : State} {F : List Nat} {C : Nat → List Nat} (h : Pool s F C) {r : Nat} (used : r ∈ s.inUse) :
    s.chain r = C r := (h.chains r used).2.chainFrom

theorem pool_of_poolLaw {s : State} (law : s.poolLaw) : Pool s s.freeCells s.chain ∧ heldLaw s := by
  obtain ⟨length, tail, ended, chains, whole, -, held⟩ := law
  refine ⟨⟨⟨?_, ended, fun some_cell => ?_, tail, length⟩, fun r used => ?_, whole⟩, held⟩
  · unfold State.freeCells
    split
    · exact .nil
    · exact chainFrom_linked ..
  · unfold State.freeCells at length ⊢
    cases head : s.bm.freeHead with
    | none => simp [head] at length; omega
    | some c => exact chainFrom_head s c some_cell
  · obtain ⟨count, length, last, ended⟩ := chains r used
    exact ⟨count, chainFrom_linked .., fun c same => Option.some.inj same ▸ ended, fun _ => chainFrom_head s _ count, last,
      length⟩

theorem poolLaw_of_pool {s : State} {F : List Nat} {C : Nat → List Nat} (h : Pool s F C) (held : heldLaw s) :
    s.poolLaw := by
  have listed : s.inUse.map s.chain = s.inUse.map C := List.map_congr_left fun r used => h.chain used
  have counts : (s.inUse.map fun r => (s.frame r).cellCount) = (s.inUse.map C).map List.length := by
    rw [List.map_map]
    exact List.map_congr_left fun r used => (h.chains r used).2.length.symm
  have total := h.whole.length_eq
  rw [List.length_append, List.length_flatten, List.length_range, h.free.length] at total
  refine ⟨?_, ?_, h.free.ended, fun r used => ?_, ?_, ?_, held⟩
  · rw [h.freeCells, h.free.length]
  · rw [h.freeCells, h.free.tail]
  · obtain ⟨count, run⟩ := h.chains r used
    rw [h.chain used]
    exact ⟨count, run.length, run.tail, run.ended _ rfl⟩
  · rw [h.freeCells, listed]
    exact h.whole
  · rw [counts]
    exact total

/-! ### The records in use -/

theorem mem_inUse {s : State} {r : Nat} : r ∈ s.inUse ↔ r < 2048 ∧ (s.frame r).state ≠ .free := by
  simp [State.inUse]

theorem inUse_nodup (s : State) : s.inUse.Nodup := List.nodup_range.filter _

theorem inUse_of_standing {s t : State} (h : Standing s t) : t.inUse = s.inUse := by
  unfold State.inUse
  exact List.filter_congr fun r _ => by simp [h.free]

theorem inUse_of_retires {s t : State} {r : Nat} (records : s.recordLaw) (h : Retires s r t) :
    s.inUse.Perm (r :: t.inUse) := by
  have small : r < 2048 := Nat.lt_of_not_le fun large => h.used (records.2.2 r large)
  have unused : r ∉ t.inUse := by simp [mem_inUse, h.reset, FrameRecord.reset]
  refine (List.perm_ext_iff_of_nodup (inUse_nodup s) (List.nodup_cons.mpr ⟨unused, inUse_nodup t⟩)).mpr fun q => ?_
  rw [List.mem_cons, mem_inUse, mem_inUse]
  by_cases same : q = r
  · simp [same, small, h.used]
  · simp [same, h.others q same]

theorem inUse_of_joins {s t : State} {n : Nat} {d : Descriptor} {need r : Nat} (records : s.recordLaw)
    (h : Joins s n d need r t) : r ∉ s.inUse ∧ t.inUse.Perm (r :: s.inUse) := by
  obtain ⟨small, free⟩ := (records.2.1 r).mp (List.mem_of_head? h.first)
  have unused : r ∉ s.inUse := by simp [mem_inUse, free]
  refine ⟨unused, ?_⟩
  refine (List.perm_ext_iff_of_nodup (inUse_nodup t) (List.nodup_cons.mpr ⟨unused, inUse_nodup s⟩)).mpr fun q => ?_
  rw [List.mem_cons, mem_inUse, mem_inUse, h.frame]
  by_cases same : q = r
  · simp [same, small, admittedRecord]
  · simp [same]

/-! ### What a retirement and an admission do to the pool -/

theorem Pool.of_standing {s t : State} {F : List Nat} {C : Nat → List Nat} (h : Pool s F C) (standing : Standing s t) :
    Pool t F C where
  free := by
    rw [standing.head, standing.tail, standing.count]
    exact h.free.mono fun c _ => standing.linkEntry c
  chains r used := by
    obtain ⟨-, -, count, first, last⟩ := standing.same r
    rw [count, first, last]
    obtain ⟨some_cell, run⟩ := h.chains r (inUse_of_standing standing ▸ used)
    exact ⟨some_cell, run.mono fun c _ => standing.linkEntry c⟩
  whole := by
    rw [inUse_of_standing standing]
    exact h.whole

/-- Two runs without a common cell, the tail of the first led to the head of the second (R6). -/
theorem Run.append {s t : State} {A B : List Nat} {head : Option Nat} {tail : Option Nat} {first last m n : Nat}
    (a : Run s A head tail m) (b : Run s B (some first) (some last) n) (some_cell : 0 < n)
    (apart : ∀ c ∈ A, c ∉ B) (entries : ∀ c, t.linkEntry c = if tail = some c then some first else s.linkEntry c) :
    Run t (A ++ B) (if tail = none then some first else head) (some last) (m + n) where
  linked := by
    refine List.isChain_append.mpr ⟨a.linked.imp fun x y follow => ?_, b.linked.imp fun x y follow => ?_,
      fun x at_tail y at_head => ?_⟩
    · refine (entries x).trans ((if_neg fun at_tail => ?_).trans follow)
      exact absurd (a.ended x at_tail) (by simp [show s.linkEntry x = some y from follow])
    · refine (entries x).trans ((if_neg fun at_tail => ?_).trans follow)
      exact absurd (a.ended x at_tail) (by simp [show s.linkEntry x = some y from follow])
    · have same : some y = some first := (Option.mem_def.mp at_head).symm.trans (b.head some_cell)
      refine (entries x).trans ((if_pos ?_).trans same.symm)
      exact a.tail.symm.trans at_tail
  ended c at_last := by
    rw [entries, if_neg fun at_tail => ?_]
    · exact b.ended c at_last
    · exact apart c (List.mem_of_getLast? (a.tail.trans at_tail)) (List.mem_of_getLast? (b.tail.trans at_last))
  head _ := by
    rw [List.head?_append, b.head some_cell]
    by_cases empty : A = []
    · simp [empty, ← a.tail]
    · have listed : A.head? = head := a.head (by rw [← a.length]; exact List.length_pos_iff.mpr empty)
      have more : tail ≠ none := by rw [← a.tail]; simpa using empty
      rw [if_neg more, ← listed]
      cases A with
      | nil => exact absurd rfl empty
      | cons x A => rfl
  tail := by rw [List.getLast?_append, b.tail]; rfl
  length := by rw [List.length_append, a.length, b.length]

theorem flatten_of_inUse {s t : State} {r : Nat} {C : Nat → List Nat} (used : s.inUse.Perm (r :: t.inUse)) :
    (s.inUse.map C).flatten.Perm (C r ++ (t.inUse.map C).flatten) := (used.map C).flatten

theorem Pool.of_retires {s t : State} {F : List Nat} {C : Nat → List Nat} {r : Nat} (h : Pool s F C)
    (records : s.recordLaw) (retires : Retires s r t) : Pool t (F ++ C r) C := by
  have used := inUse_of_retires records retires
  have whole : (F ++ (C r ++ (t.inUse.map C).flatten)).Perm (List.range 8192) :=
    ((flatten_of_inUse used).append_left F).symm.trans h.whole
  have nodup := whole.nodup_iff.mpr List.nodup_range
  obtain ⟨-, -, from_free⟩ := List.nodup_append'.mp nodup
  obtain ⟨some_cell, run⟩ := h.chains r (used.mem_iff.mpr List.mem_cons_self)
  refine ⟨?_, fun q mem => ?_, by rwa [List.append_assoc]⟩
  · rw [retires.head, retires.tail, retires.count]
    exact h.free.append run some_cell (fun c free chained => from_free free (List.mem_append_left _ chained))
      retires.linkEntry
  · have apart : q ≠ r := fun same => by simp [mem_inUse, same, retires.reset, FrameRecord.reset] at mem
    obtain ⟨count, run⟩ := h.chains q (used.mem_iff.mpr (List.mem_cons_of_mem r mem))
    rw [retires.others q apart]
    refine ⟨count, run.mono fun c chained => ?_⟩
    have elsewhere : s.bm.freeTail ≠ some c := fun at_tail =>
      from_free (List.mem_of_getLast? (h.free.tail.trans at_tail))
        (List.mem_append_right _ (List.mem_flatten_of_mem (List.mem_map_of_mem mem) chained))
    rw [retires.linkEntry, if_neg elsewhere]

/-- An allocation takes the first cells of the free cell list (R5). -/
theorem Pool.allocation {s : State} {F : List Nat} {C : Nat → List Nat} (h : Pool s F C) {need : Nat}
    (some_cell : 1 ≤ need) (room : need ≤ s.bm.freeCount) : allocationCells s need = F.take need := by
  have free := h.free
  obtain ⟨c, L, rfl⟩ : ∃ c L, F = c :: L := List.exists_cons_of_length_pos (by rw [free.length]; omega)
  have head : s.bm.freeHead = some c := (free.head (by omega)).symm
  have cells : chainFrom s s.bm.freeCount c = c :: L := (head ▸ free : Run s _ (some c) _ _).chainFrom
  rw [allocationCells, head, ← cells, chainFrom_take s room]

/-- A run cut in two: the link of the first part's last cell becomes END (R5). -/
theorem Run.split {s t : State} {A B : List Nat} {head tail : Option Nat} {first last n : Nat}
    (h : Run s (A ++ B) head tail n) (nodup : (A ++ B).Nodup) (at_head : A.head? = some first)
    (at_last : A.getLast? = some last) (entries : ∀ c, t.linkEntry c = if c = last then none else s.linkEntry c) :
    Run t A (some first) (some last) A.length ∧
      Run t B (s.linkEntry last) (if A.length < n then tail else none) B.length := by
  obtain ⟨_, _, apart⟩ := List.nodup_append'.mp nodup
  obtain ⟨in_a, in_b, joint⟩ := List.isChain_append.mp h.linked
  have last_mem : last ∈ A := List.mem_of_getLast? at_last
  obtain ⟨front, split⟩ : ∃ front, A = front ++ [last] := List.getLast?_eq_some_iff.mp at_last
  have before : ∀ c ∈ front, c ≠ last := by
    rintro c mem rfl
    have := (List.nodup_append'.mp (split ▸ ‹A.Nodup›)).2.2
    exact this mem (List.mem_singleton_self c)
  have behind : ∀ c ∈ B, c ≠ last := fun c mem same => apart last_mem (same ▸ mem)
  have length : A.length + B.length = n := by rw [← List.length_append, h.length]
  refine ⟨⟨?_, fun c same => ?_, fun _ => at_head, at_last, rfl⟩, ⟨?_, fun c same => ?_, fun more => ?_, ?_, rfl⟩⟩
  · rw [split] at in_a ⊢
    obtain ⟨in_front, -, joint⟩ := List.isChain_append.mp in_a
    refine List.isChain_append.mpr ⟨in_front.imp_of_mem_imp fun {a b} mem _ follow => ?_, .singleton _,
      fun x x_last y y_head => ?_⟩
    · exact (entries a).trans ((if_neg (before a mem)).trans follow)
    · exact (entries x).trans ((if_neg (before x (List.mem_of_getLast? x_last))).trans (joint x x_last y y_head))
  · rw [entries, if_pos (Option.some.inj same).symm]
  · exact in_b.imp_of_mem_imp fun {a b} mem _ follow => (entries a).trans ((if_neg (behind a mem)).trans follow)
  · split at same
    · rw [entries]
      split
      · rfl
      · exact h.ended c same
    · cases same
  · obtain ⟨b, rest, rfl⟩ := List.exists_cons_of_length_pos more
    exact (joint last at_last b rfl).symm
  · split
    · next more =>
      obtain ⟨b, rest, rfl⟩ := List.exists_cons_of_length_pos (by omega : 0 < B.length)
      rw [← h.tail, List.getLast?_append_cons]
    · next empty => rw [List.length_eq_zero_iff.mp (by omega : B.length = 0)]; rfl

theorem Pool.of_joins {s t : State} {F : List Nat} {C : Nat → List Nat} {n : Nat} {d : Descriptor} {need r : Nat}
    (h : Pool s F C) (records : s.recordLaw) (joins : Joins s n d need r t) (some_cell : 1 ≤ need) :
    Pool t (F.drop need) (Function.update C r (F.take need)) := by
  obtain ⟨unused, used⟩ := inUse_of_joins records joins
  have length : (F.take need).length = need := by rw [List.length_take, h.free.length]; have := joins.room; omega
  obtain ⟨first, L, cells⟩ := List.exists_cons_of_length_pos (by omega : 0 < (F.take need).length)
  obtain ⟨last, at_last⟩ : ∃ last, (F.take need).getLast? = some last := by
    rw [cells]; exact ⟨_, List.getLast?_eq_some_getLast (List.cons_ne_nil _ _)⟩
  have at_head : (F.take need).head? = some first := by rw [cells]; rfl
  have taken := h.allocation some_cell joins.room
  have lastD : (allocationCells s need).getLastD 0 = last := by rw [taken, List.getLastD_eq_getLast?, at_last]; rfl
  have headD : (allocationCells s need).headD 0 = first := by rw [taken, cells]; rfl
  have whole := h.whole
  rw [← List.take_append_drop need F] at whole
  have nodup := whole.nodup_iff.mpr List.nodup_range
  obtain ⟨free_nodup, -, apart⟩ := List.nodup_append'.mp nodup
  have ended : ¬ need < s.bm.freeCount → s.linkEntry last = none := fun all => by
    have everything : F.take need = F := List.take_of_length_le (by rw [h.free.length]; omega)
    exact h.free.ended last (by rw [← h.free.tail, ← everything, at_last])
  have entries : ∀ c, t.linkEntry c = if c = last then none else s.linkEntry c := fun c => by
    rw [joins.linkEntry, lastD]
    by_cases more : need < s.bm.freeCount
    · simp [more]
    · by_cases same : c = last
      · simp [more, same, ended]
      · simp [more, same]
  have free := h.free
  rw [← List.take_append_drop need F] at free
  obtain ⟨chain, rest⟩ := free.split free_nodup at_head at_last entries
  rw [length] at chain rest
  obtain ⟨new_head, new_tail, new_count, -⟩ := admitRecord_bm n d need r s
  have elsewhere : ∀ q ∈ s.inUse, ∀ c ∈ C q, c ≠ last := fun q mem c chained same =>
    apart (List.mem_append_left _ (List.mem_of_getLast? at_last))
      (List.mem_flatten_of_mem (List.mem_map_of_mem mem) (same ▸ chained))
  refine ⟨?_, fun q mem => ?_, ?_⟩
  · have left : (F.drop need).length = s.bm.freeCount - need := by rw [List.length_drop, h.free.length]
    have head : (if need < s.bm.freeCount then s.linkEntry last else none) = s.linkEntry last := by
      split
      · rfl
      · next all => exact (ended all).symm
    rw [joins.bm, new_head, new_tail, new_count, lastD, head, ← left]
    exact rest
  · rw [joins.frame]
    by_cases same : q = r
    · subst same
      rw [if_pos rfl, Function.update_self, headD, lastD]
      exact ⟨some_cell, chain⟩
    · have before : q ∈ s.inUse := (List.mem_cons.mp (used.mem_iff.mp mem)).resolve_left same
      obtain ⟨count, run⟩ := h.chains q before
      rw [if_neg same, Function.update_of_ne same]
      exact ⟨count, run.mono fun c chained => by rw [entries, if_neg (elsewhere q before c chained)]⟩
  · have others : s.inUse.map (Function.update C r (F.take need)) = s.inUse.map C :=
      List.map_congr_left fun q mem => Function.update_of_ne (fun same : q = r => unused (same ▸ mem)) _ _
    have chains := (used.map (Function.update C r (F.take need))).flatten
    rw [List.map_cons, Function.update_self, others, List.flatten_cons] at chains
    refine (chains.append_left _).trans (List.Perm.trans ?_ whole)
    rw [← List.append_assoc]
    exact List.perm_append_comm.append_right _

/-! ### The law -/

theorem pool_of_reset {t : State} (bm : t.bm = BmBlock.reset) : Pool t (List.range 8192) fun _ => [] := by
  have entry : ∀ c, t.linkEntry c = if c < 8191 then some (c + 1) else none := fun c => by
    have links : t.bm.links = [] := by rw [bm]; rfl
    rw [State.linkEntry, links]
    rfl
  have unused : t.inUse = [] := List.filter_eq_nil_iff.mpr fun r _ => by
    have frames : t.bm.frames = [] := by rw [bm]; rfl
    have free : (t.frame r).state = .free := by rw [State.frame, frames]; rfl
    simp [free]
  refine ⟨?_, by simp [unused], by simp [unused]⟩
  rw [bm]
  refine ⟨?_, fun c last => ?_, fun _ => ?_, ?_, ?_⟩
  · refine (List.isChain_range _ 8192).mpr fun c small => ?_
    rw [follows, entry, if_pos (by omega)]
  · obtain rfl : 8191 = c := Option.some.inj last
    rw [entry, if_neg (by omega)]
  · rw [List.head?_range]; rfl
  · rw [List.getLast?_range]; rfl
  · exact List.length_range

theorem heldLaw_of_held {s t : State} (held : ∀ n, (t.sq n).held = (s.sq n).held ∨ (t.sq n).held = none)
    (law : heldLaw s) : heldLaw t := fun n h holds => by
  rcases held n with same | none
  · exact law n h (same ▸ holds)
  · rw [none] at holds; cases holds

theorem piece_heldLaw {s t : State} (h : Piece s t) (law : heldLaw s) : heldLaw t := by
  cases h with
  | quiet h => exact heldLaw_of_held (fun n => .inl (by rw [h.sq])) law
  | start _ h => exact heldLaw_of_held (fun n => .inl (by rw [h.sq])) law
  | halt h => exact heldLaw_of_held (fun n => .inl (by rw [h.sq])) law
  | clear _ dfu => exact heldLaw_of_held (fun n => .inr (by rw [State.sq, dfu]; rfl)) law
  | hold i n k h _ _ _ some_byte need =>
    intro m g holds
    by_cases same : m = n
    · obtain rfl : h = g := by simpa [same] using holds
      exact ⟨some_byte, need⟩
    · exact law m g (by simpa [same] using holds)
  | ring n c same =>
    obtain ⟨-, -, -, -, -, -, held⟩ := same
    exact heldLaw_of_held (fun m => by by_cases same : m = n <;> simp [same, held]) law
  | createRing n c _ _ _ _ _ held =>
    exact heldLaw_of_held (fun m => by by_cases same : m = n <;> simp [same, held]) law
  | removeRing n =>
    exact heldLaw_of_held (fun m => by by_cases same : m = n <;> simp [same, SqContext.reset]) law
  | read i n | release i n | refuse i n | drop n =>
    exact heldLaw_of_held (fun m => by by_cases same : m = n <;> simp [same]) law
  | retireQueued r g =>
    exact heldLaw_of_held (fun m => by by_cases same : m = g.ring <;> simp [same]) law
  | retireApart r g =>
    exact heldLaw_of_held (fun m => by by_cases same : m = g.ring <;> simp [same]) law
  | _ => exact heldLaw_of_held (fun m => by simp) law

theorem admits_heldLaw {s t : State} (h : Admits s t) (law : heldLaw s) : heldLaw t := by
  cases h with
  | fresh i n => exact heldLaw_of_held (fun m => by by_cases same : m = n <;> simp [same]) law
  | retried i n => exact heldLaw_of_held (fun m => by by_cases same : m = n <;> simp [same]) law

theorem piece_poolLaw {s t : State} (h : Piece s t) (law : s.recordLaw ∧ s.poolLaw) : t.recordLaw ∧ t.poolLaw := by
  obtain ⟨records, law⟩ := law
  obtain ⟨pool, held⟩ := pool_of_poolLaw law
  refine ⟨piece_recordLaw h records, ?_⟩
  rcases piece_records h with standing | ⟨r, retires⟩ | reset
  · exact poolLaw_of_pool (pool.of_standing standing) (piece_heldLaw h held)
  · exact poolLaw_of_pool (pool.of_retires records retires) (piece_heldLaw h held)
  · exact poolLaw_of_pool (pool_of_reset reset) (piece_heldLaw h held)

/-- The cell need of an admission is not 0. -/
theorem needed_pos {s : State} (law : heldLaw s) {d : Descriptor} {need : Nat} (h : needed s d need) : 1 ≤ need := by
  rcases h with ⟨some_byte, rfl⟩ | ⟨n, h, held, -, rfl⟩
  · unfold cellNeed cellBytes
    omega
  · obtain ⟨some_byte, need⟩ := law n h held
    omega

theorem admits_poolLaw {s t : State} (h : Admits s t) (law : s.recordLaw ∧ s.poolLaw) : t.recordLaw ∧ t.poolLaw := by
  obtain ⟨records, law⟩ := law
  obtain ⟨pool, held⟩ := pool_of_poolLaw law
  obtain ⟨n, d, need, r, joins, some_need⟩ := admits_joins h
  exact ⟨recordLaw_of_joins joins records,
    poolLaw_of_pool (pool.of_joins records joins (needed_pos held some_need)) (admits_heldLaw h held)⟩

/-- The law does not read the queue of commands. -/
theorem poolLaw_unread (s : State) (rest : List Instr) (law : s.poolLaw) : { s with pending := rest }.poolLaw := by
  obtain ⟨pool, held⟩ := pool_of_poolLaw law
  exact poolLaw_of_pool
    (pool.of_standing (.of_frames (fun _ => rfl) ⟨rfl, fun _ => rfl, rfl, rfl, rfl⟩ fun _ => keepsShare_refl _)) held

/-- Settles O54: a retirement appends the record's run to the free cell list, an admission cuts its first cells off. -/
theorem poolLawKept : Obligations.PoolLawKept := fun _ _ records law next =>
  (step_keeps_of_made (L := fun s => s.recordLaw ∧ s.poolLaw)
    (fun s rest law => ⟨law.1, poolLaw_unread s rest law.2⟩) (fun _ _ => piece_poolLaw)
    (fun _ _ => admits_poolLaw) next ⟨records, law⟩).2

end Sys2Proof.Proofs.CellPool

/-! The law of the flow queues and of cells held (R22, R24), and the order of admission. -/

namespace Sys2Proof.Proofs.FlowQueues

open Sys2Proof Sys2Proof.Machine Sys2Proof.Proofs.Datapath Sys2Proof.Proofs.Readings Sys2Proof.Proofs.Steps
open Sys2Proof.Proofs.Records Sys2Proof.Proofs.CellPool

/-! ### The queues -/

/-- A record is in the queue of its flow, once, exactly when it is FILLING, READY or SENDING; a SENDING one is the head. -/
def lineLaw (s : State) : Prop :=
  ∀ f, (s.flow f).queue.Nodup ∧
    (∀ r, r ∈ (s.flow f).queue ↔ (s.frame r).flow = f ∧ queued (s.frame r)) ∧
    ∀ r ∈ (s.flow f).queue, (s.frame r).state = .sending → (s.flow f).queue.head? = some r

/-- What a piece can do to the queues and to the records in them. -/
inductive Lines (s t : State) : Prop
  /-- The queues stand; a record becomes SENDING only at the head of one. -/
  | stand : (∀ f, (t.flow f).queue = (s.flow f).queue) → (∀ q, queued (t.frame q) ↔ queued (s.frame q)) →
      (∀ q, queued (s.frame q) → (t.frame q).flow = (s.frame q).flow) →
      (∀ q, (t.frame q).state = .sending → (s.frame q).state = .sending ∨ ∃ f, (s.flow f).queue.head? = some q) →
      Lines s t
  /-- A record leaves its flow's queue. -/
  | leave (r) : (∀ f, (t.flow f).queue = if f = (s.frame r).flow then (s.flow f).queue.erase r else (s.flow f).queue) →
      ¬ queued (t.frame r) → (∀ q, q ≠ r → t.frame q = s.frame q) → Lines s t
  | reset : (∀ f, (t.flow f).queue = []) → (∀ q, ¬ queued (t.frame q)) → Lines s t

theorem Lines.of_same {s t : State} (flows : ∀ f, t.flow f = s.flow f) (frames : ∀ q, t.frame q = s.frame q) :
    Lines s t :=
  .stand (fun f => by rw [flows]) (fun q => by rw [frames]) (fun q _ => by rw [frames])
    fun q sends => .inl (frames q ▸ sends)

theorem not_queued_reset : ¬ queued FrameRecord.reset := by simp [queued, FrameRecord.reset]

theorem not_queued_apart {f : FrameRecord} (h : f.state = .closing ∨ f.state = .discarding) : ¬ queued f := by
  rcases h with h | h <;> simp [queued, h]

theorem stays_queued {s : State} {r : Nat} {g : FrameRecord} (h : stays s r g) : queued g ↔ queued (s.frame r) := by
  rcases h with h | ⟨before, after⟩ | ⟨before | before, after, -⟩
  · simp [queued, h]
  all_goals simp [queued, before, after]

theorem Lines.of_record {s : State} {r : Nat} {g : FrameRecord} (same : sameFrame (s.frame r) g) (within : stays s r g) :
    Lines s (s.setFrame r g) := by
  refine .stand (fun f => by simp) (fun q => ?_) (fun q _ => ?_) fun q sends => ?_
  · by_cases here : q = r
    · simp [here, stays_queued within]
    · simp [here]
  · by_cases here : q = r
    · simp [here, same.2.1]
    · simp [here]
  · by_cases here : q = r
    · rw [State.frame_setFrame, if_pos here] at sends
      rcases within with unchanged | ⟨-, ready⟩ | ⟨-, -, head⟩
      · exact .inl (by rw [here, ← unchanged, sends])
      · rw [ready] at sends; cases sends
      · exact .inr (here ▸ head)
    · rw [State.frame_setFrame, if_neg here] at sends
      exact .inl sends

/-- A piece leaves the queues standing, takes one record out of its queue, or resets them all. -/
theorem piece_lines {s t : State} (h : Piece s t) : Lines s t := by
  cases h with
  | quiet h => exact .of_same h.flow h.frame
  | start _ h => exact .of_same h.flow h.frame
  | halt h => exact .of_same h.flow h.frame
  | record r g _ same within => exact .of_record same within
  | leave r g _ same apart =>
    refine .leave r (fun f => ?_) (by simpa using not_queued_apart apart) fun q other => by simp [other]
    simp only [leaveQueue_flow, State.frame_setFrame, if_true, same.2.1, State.setFrame_reads]
    split <;> rfl
  | retireQueued r g _ _ same =>
    refine .leave r (fun f => ?_) (by simpa using not_queued_reset) fun q other => by simp [other]
    simp only [retireRecord_flow, leaveQueue_flow, leaveQueue_reads, State.frame_setFrame, if_true, same.2.1,
      State.setFrame_reads]
    split <;> rfl
  | retireApart r g _ apart same =>
    refine .stand (fun f => ?_) (fun q => ?_) (fun q from_queue => ?_) fun q sends => ?_
    · simp only [retireRecord_flow, State.setFrame_reads]
      split <;> rfl
    · by_cases here : q = r
      · simp [here, not_queued_reset, not_queued_apart apart]
      · simp [here]
    · have other : q ≠ r := fun here => not_queued_apart apart (here ▸ from_queue)
      simp [other]
    · by_cases here : q = r
      · simp [here, FrameRecord.reset] at sends
      · exact .inl (by simpa [here] using sends)
  | flow n c same =>
    refine .stand (fun f => ?_) (fun q => by simp) (fun q _ => by simp) fun q sends => .inl (by simpa using sends)
    by_cases here : f = n
    · simp [here, same.1]
    · simp [here]
  | clear bm =>
    have flows : t.bm.flows = [] := by rw [bm]; rfl
    have frames : t.bm.frames = [] := by rw [bm]; rfl
    refine .reset (fun f => ?_) fun q => ?_
    · rw [State.flow, flows]; rfl
    · rw [State.frame, frames]; exact not_queued_reset
  | _ => exact .of_same (by simp) (by simp)

theorem head_erase {L : List Nat} {a r : Nat} (head : L.head? = some a) (other : a ≠ r) :
    (L.erase r).head? = some a := by
  cases L with
  | nil => cases head
  | cons b L =>
    obtain rfl : b = a := by simpa using head
    rw [List.erase_cons_tail (by simpa using other)]
    rfl

theorem lineLaw_of_lines {s t : State} (h : Lines s t) (law : lineLaw s) : lineLaw t := by
  intro f
  obtain ⟨nodup, mem, head⟩ := law f
  cases h with
  | stand queues same flows sending =>
    rw [queues]
    have listed : ∀ r, r ∈ (s.flow f).queue ↔ (t.frame r).flow = f ∧ queued (t.frame r) := fun r => by
      rw [mem, same]
      exact and_congr_left fun from_queue => by rw [flows r from_queue]
    refine ⟨nodup, listed, fun r member sends => ?_⟩
    rcases sending r sends with before | ⟨k, at_head⟩
    · exact head r member before
    · have of_k := (((law k).2.1 r).mp (List.mem_of_head? at_head)).1
      have of_f := ((mem r).mp member).1
      exact (of_k.symm.trans of_f) ▸ at_head
  | leave r queues apart others =>
    have queue : (t.flow f).queue = (s.flow f).queue.erase r := by
      rw [queues]
      split
      · rfl
      · next other => exact (List.erase_of_not_mem fun member => other ((mem r).mp member).1.symm).symm
    rw [queue]
    refine ⟨nodup.erase r, fun q => ?_, fun q member sends => ?_⟩
    · rw [nodup.mem_erase_iff]
      by_cases here : q = r
      · simp [here, apart]
      · rw [others q here, mem]
        simp [here]
    · obtain ⟨other, member⟩ := nodup.mem_erase_iff.mp member
      exact head_erase (head q member (others q other ▸ sends)) other
  | reset queues apart =>
    rw [queues]
    exact ⟨.nil, fun r => by simp [apart], by simp⟩

theorem sublist_of_lines {s t : State} (h : Lines s t) (f : Nat) : ((t.flow f).queue).Sublist (s.flow f).queue := by
  cases h with
  | stand queues => rw [queues]
  | leave r queues =>
    rw [queues]
    split
    · exact List.erase_sublist
    · exact .refl _
  | reset queues => rw [queues]; exact List.nil_sublist _

theorem queue_of_joins {s t : State} {n : Nat} {d : Descriptor} {need r : Nat} (h : Joins s n d need r t) (f : Nat) :
    (t.flow f).queue = if f = d.flow then (s.flow f).queue ++ [r] else (s.flow f).queue := by
  rw [h.flow]
  split <;> rfl

theorem lineLaw_of_joins {s t : State} {n : Nat} {d : Descriptor} {need r : Nat} (h : Joins s n d need r t)
    (records : s.recordLaw) (law : lineLaw s) : lineLaw t := by
  intro f
  obtain ⟨nodup, mem, head⟩ := law f
  have free := ((records.2.1 r).mp (List.mem_of_head? h.first)).2
  have outside : r ∉ (s.flow f).queue := fun member => by
    have from_queue := ((mem r).mp member).2
    simp [queued, free] at from_queue
  have joined : t.frame r = _ := (h.frame r).trans (if_pos rfl)
  have others : ∀ q, q ≠ r → t.frame q = s.frame q := fun q other => (h.frame q).trans (if_neg other)
  rw [queue_of_joins h]
  by_cases own : f = d.flow
  · simp only [own, if_true]
    rw [own] at nodup mem head outside
    refine ⟨?_, fun q => ?_, fun q member sends => ?_⟩
    · exact List.nodup_append'.mpr ⟨nodup, List.nodup_singleton r, by simpa using outside⟩
    · by_cases here : q = r
      · simp [here, joined, admittedRecord, queued]
      · rw [others q here]
        simp [here, mem]
    · by_cases here : q = r
      · rw [here, joined] at sends
        cases sends
      · have member : q ∈ (s.flow d.flow).queue := by simpa [here] using member
        rw [List.head?_append, head q member (others q here ▸ sends)]
        rfl
  · simp only [own, if_false]
    refine ⟨nodup, fun q => ?_, fun q member sends => ?_⟩
    · by_cases here : q = r
      · simp [here, joined, admittedRecord, outside, Ne.symm own]
      · rw [others q here, mem]
    · have other : q ≠ r := fun here => outside (here ▸ member)
      exact head q member (others q other ▸ sends)

/-! ### Cells held -/

/-- The cells that the records in use of a flow hold. -/
def cellsOf (s : State) (f : Nat) : Nat :=
  ((s.inUse.filter fun r => decide ((s.frame r).flow = f)).map fun r => (s.frame r).cellCount).sum

/-- Cells held is the sum of the flow's records, at most its cap, and 0 in a flow never configured. -/
def shareLaw (s : State) : Prop :=
  ∀ f, (s.flow f).held = cellsOf s f ∧ (s.flow f).held ≤ (s.flow f).cap ∧
    ((s.flow f).state = .unconfigured → (s.flow f).held = 0)

theorem queueLaw_iff (s : State) : s.queueLaw ↔ lineLaw s ∧ shareLaw s := by
  refine ⟨fun law => ⟨fun f => ?_, fun f => ?_⟩, fun ⟨lines, shares⟩ f => ?_⟩
  · obtain ⟨nodup, mem, head, -⟩ := law f
    exact ⟨nodup, mem, head⟩
  · obtain ⟨-, -, -, share⟩ := law f
    exact share
  · obtain ⟨nodup, mem, head⟩ := lines f
    exact ⟨nodup, mem, head, shares f⟩

/-- A sum over the records of a list that meet a condition, with one record named. -/
theorem sum_filter_cons (p : Nat → Bool) (g : Nat → Nat) (r : Nat) (L : List Nat) :
    (((r :: L).filter p).map g).sum = (if p r then g r else 0) + ((L.filter p).map g).sum := by
  by_cases h : p r <;> simp [h]

theorem sum_filter_congr {p p' : Nat → Bool} {g g' : Nat → Nat} {L : List Nat} (cond : ∀ q ∈ L, p q = p' q)
    (value : ∀ q ∈ L, g q = g' q) : ((L.filter p).map g).sum = ((L.filter p').map g').sum := by
  rw [List.filter_congr cond]
  exact congrArg List.sum (List.map_congr_left fun q mem => value q (List.mem_of_mem_filter mem))

theorem cellsOf_of_standing {s t : State} (h : Standing s t) (f : Nat) : cellsOf t f = cellsOf s f := by
  unfold cellsOf
  rw [inUse_of_standing h]
  refine sum_filter_congr (fun q _ => ?_) fun q _ => (h.same q).2.2.1
  rw [(h.same q).2.1]

theorem cellsOf_of_retires {s t : State} {r : Nat} (records : s.recordLaw) (h : Retires s r t) (f : Nat) :
    cellsOf s f = (if (s.frame r).flow = f then (s.frame r).cellCount else 0) + cellsOf t f := by
  have others : ∀ q ∈ t.inUse, t.frame q = s.frame q := fun q mem => h.others q fun (here : q = r) => by
    simp [mem_inUse, here, h.reset, FrameRecord.reset] at mem
  unfold cellsOf
  rw [(((inUse_of_retires records h).filter _).map _).sum_eq, sum_filter_cons]
  simp only [decide_eq_true_eq]
  exact congrArg _ (sum_filter_congr (fun q mem => by rw [others q mem]) fun q mem => by rw [others q mem])

theorem cellsOf_of_joins {s t : State} {n : Nat} {d : Descriptor} {need r : Nat} (records : s.recordLaw)
    (h : Joins s n d need r t) (f : Nat) : cellsOf t f = (if d.flow = f then need else 0) + cellsOf s f := by
  obtain ⟨unused, used⟩ := inUse_of_joins records h
  have joined : t.frame r = _ := (h.frame r).trans (if_pos rfl)
  have others : ∀ q ∈ s.inUse, t.frame q = s.frame q := fun q mem =>
    (h.frame q).trans (if_neg fun (here : q = r) => unused (here ▸ mem))
  unfold cellsOf
  rw [((used.filter _).map _).sum_eq, sum_filter_cons]
  simp only [decide_eq_true_eq, joined, admittedRecord]
  exact congrArg _ (sum_filter_congr (fun q mem => by rw [others q mem]) fun q mem => by rw [others q mem])

theorem shareLaw_of_standing {s t : State} (h : Standing s t) (law : shareLaw s) : shareLaw t := by
  intro f
  obtain ⟨sum, within, unset⟩ := law f
  obtain ⟨held, cap, configured⟩ := h.flows f
  rw [cellsOf_of_standing h, held]
  refine ⟨sum, ?_, fun none => unset (configured none)⟩
  rcases cap with same | empty | none
  · exact same ▸ within
  · omega
  · have := unset none; omega

theorem shareLaw_of_retires {s t : State} {r : Nat} (records : s.recordLaw) (h : Retires s r t)
    (law : shareLaw s) : shareLaw t := by
  intro f
  obtain ⟨sum, within, unset⟩ := law f
  obtain ⟨state, cap, held⟩ := h.flows f
  have split := cellsOf_of_retires records h f
  rw [state, cap, held]
  exact ⟨by omega, by omega, fun none => by have := unset none; omega⟩

theorem shareLaw_of_joins {s t : State} {n : Nat} {d : Descriptor} {need r : Nat} (records : s.recordLaw)
    (h : Joins s n d need r t) (law : shareLaw s) : shareLaw t := by
  intro f
  obtain ⟨sum, within, unset⟩ := law f
  rw [cellsOf_of_joins records h f, h.flow]
  by_cases own : f = d.flow
  · subst own
    simp only [if_true]
    exact ⟨by omega, h.within, fun none => by simp [h.enabled] at none⟩
  · simp only [own, Ne.symm own, if_false, Nat.zero_add]
    exact ⟨sum, within, unset⟩

theorem shareLaw_of_reset {t : State} (bm : t.bm = BmBlock.reset) : shareLaw t := by
  intro f
  have flows : t.bm.flows = [] := by rw [bm]; rfl
  have flow : t.flow f = FlowContext.reset := by rw [State.flow, flows]; rfl
  have unused : t.inUse = [] := List.filter_eq_nil_iff.mpr fun r _ => by
    have frames : t.bm.frames = [] := by rw [bm]; rfl
    have free : (t.frame r).state = .free := by rw [State.frame, frames]; rfl
    simp [free]
  simp [cellsOf, unused, flow, FlowContext.reset]

theorem piece_queueLaw {s t : State} (h : Piece s t) (law : s.recordLaw ∧ s.queueLaw) : t.recordLaw ∧ t.queueLaw := by
  obtain ⟨records, law⟩ := law
  obtain ⟨lines, shares⟩ := (queueLaw_iff s).mp law
  refine ⟨piece_recordLaw h records, (queueLaw_iff t).mpr ⟨lineLaw_of_lines (piece_lines h) lines, ?_⟩⟩
  rcases piece_records h with standing | ⟨r, retires⟩ | reset
  · exact shareLaw_of_standing standing shares
  · exact shareLaw_of_retires records retires shares
  · exact shareLaw_of_reset reset

theorem admits_queueLaw {s t : State} (h : Admits s t) (law : s.recordLaw ∧ s.queueLaw) : t.recordLaw ∧ t.queueLaw := by
  obtain ⟨records, law⟩ := law
  obtain ⟨lines, shares⟩ := (queueLaw_iff s).mp law
  obtain ⟨n, d, need, r, joins, -⟩ := admits_joins h
  exact ⟨recordLaw_of_joins joins records,
    (queueLaw_iff t).mpr ⟨lineLaw_of_joins joins records lines, shareLaw_of_joins records joins shares⟩⟩

/-! ### The order of admission -/

theorem pieces_sublist {s t : State} (h : Pieces s t) (f : Nat) : ((t.flow f).queue).Sublist (s.flow f).queue := by
  induction h with
  | refl => exact .refl _
  | tail _ last ih => exact (sublist_of_lines (piece_lines last) f).trans ih

/-- A step adds at most one record to a queue, at its tail and from FREE. -/
theorem made_joins {s t : State} (h : Made s t) (records : s.recordLaw) (f : Nat) :
    ∃ joined : List Nat, joined.length ≤ 1 ∧ (∀ r ∈ joined, (s.frame r).state = .free) ∧
      ((t.flow f).queue).Sublist ((s.flow f).queue ++ joined) := by
  rcases h with pieces | ⟨u, v, before, admits, after⟩
  · exact ⟨[], by simp, by simp, by simpa using pieces_sublist pieces f⟩
  · obtain ⟨n, d, need, r, joins, -⟩ := admits_joins admits
    have listed : r ∈ s.bm.freeRecords := before.freeRecords ▸ List.mem_of_head? joins.first
    refine ⟨[r], Nat.le_refl 1, fun q mem => ?_, (pieces_sublist after f).trans ?_⟩
    · obtain rfl := List.mem_singleton.mp mem
      exact ((records.2.1 q).mp listed).2
    · rw [queue_of_joins joins, before.flow]
      split
      · exact .refl _
      · exact List.sublist_append_left _ _

/-- Settles O55: a piece can only take records out of the queues, and an admission appends one from FREE. -/
theorem flowQueueLawKept : Obligations.FlowQueueLawKept := by
  intro s t records next
  refine ⟨fun law => ?_, ?_⟩
  · exact (step_keeps_of_made (L := fun s => s.recordLaw ∧ s.queueLaw) (fun _ _ law => law) (fun _ _ => piece_queueLaw)
      (fun _ _ => admits_queueLaw) next ⟨records, law⟩).2
  · rcases step_cases next with rfl | ⟨c, rest, next⟩
    · exact fun f => ⟨[], by simp, by simp, by simp⟩
    · exact made_joins (s := { s with pending := rest }) (exec_made next) records

end Sys2Proof.Proofs.FlowQueues

/-! The in-flight limit (R48), and what the in-flight and the reserved counts count (R39, R61, R121). -/

namespace Sys2Proof.Proofs.DescriptorCounts

open Sys2Proof Sys2Proof.Machine Sys2Proof.Proofs.Datapath Sys2Proof.Proofs.Readings Sys2Proof.Proofs.Steps
open Sys2Proof.Proofs.Records Sys2Proof.Proofs.CellPool Sys2Proof.Proofs.FlowQueues

/-! ### The in-flight limit -/

theorem limitLaw_of_sq {s t : State}
    (rings : ∀ m, ((t.sq m).inFlight ≤ (s.sq m).inFlight ∧ (t.sq m).limit = (s.sq m).limit) ∨
      (t.sq m).inFlight ≤ (t.sq m).limit) (law : s.limitLaw) : t.limitLaw := fun m => by
  have before := law m
  rcases rings m with ⟨fewer, same⟩ | within
  · omega
  · exact within

theorem mayRead_iff {s : State} {n : Nat} : mayRead s n = true ↔ (s.sq n).state = .active ∧ 0 < (s.sq n).pendingCount ∧
    (s.sq n).reading = false ∧ (s.sq n).held = none ∧ (s.sq n).inFlight < (s.sq n).limit ∧
    1 ≤ (s.cq (s.sq n).cq).free := by
  simp [mayRead, and_assoc]

theorem piece_limitLaw {s t : State} (h : Piece s t) (law : s.limitLaw) : t.limitLaw := by
  refine limitLaw_of_sq (fun m => ?_) law
  cases h with
  | quiet h => exact .inl (by rw [h.sq]; exact ⟨Nat.le_refl _, rfl⟩)
  | start _ h => exact .inl (by rw [h.sq]; exact ⟨Nat.le_refl _, rfl⟩)
  | halt h => exact .inl (by rw [h.sq]; exact ⟨Nat.le_refl _, rfl⟩)
  | clear _ dfu => exact .inr (by rw [State.sq, dfu]; exact Nat.zero_le _)
  | read i n _ _ may =>
    obtain ⟨-, -, -, -, room, -⟩ := mayRead_iff.mp may
    by_cases here : m = n
    · exact .inr (by simpa [here] using room)
    · exact .inl (by simp [here])
  | ring n c same =>
    obtain ⟨-, -, -, limit, inFlight, -⟩ := same
    by_cases here : m = n <;> exact .inl (by simp [here, limit, inFlight])
  | createRing n c _ _ _ none =>
    by_cases here : m = n
    · exact .inr (by simp [here, none])
    · exact .inl (by simp [here])
  | removeRing n =>
    by_cases here : m = n
    · exact .inr (by simp [here, SqContext.reset])
    · exact .inl (by simp [here])
  | release i n | refuse i n | hold i n | drop n => by_cases here : m = n <;> exact .inl (by simp [here])
  | retireQueued r g => by_cases here : m = g.ring <;> exact .inl (by simp [here])
  | retireApart r g => by_cases here : m = g.ring <;> exact .inl (by simp [here])
  | _ => exact .inl (by simp)

theorem admits_limitLaw {s t : State} (h : Admits s t) (law : s.limitLaw) : t.limitLaw := by
  refine limitLaw_of_sq (fun m => .inl ?_) law
  cases h with
  | fresh i n | retried i n => by_cases here : m = n <;> simp [here]

/-! ### In-flight counts: the descriptor being read, the held descriptor and the admitted frames (R39, R61) -/

/-- The number of admitted frames of a submission ring. -/
def framesOf (s : State) (n : Nat) : Nat := (s.inUse.filter fun r => decide ((s.frame r).ring = n)).length

def countLaw (s : State) : Prop :=
  ∀ n, (s.sq n).inFlight =
    (if (s.sq n).reading then 1 else 0) + (if (s.sq n).held.isSome then 1 else 0) + framesOf s n

theorem framesOf_of_standing {s t : State} (h : Standing s t) (n : Nat) : framesOf t n = framesOf s n := by
  unfold framesOf
  rw [inUse_of_standing h]
  exact congrArg List.length (List.filter_congr fun q _ => by rw [(h.same q).1])

theorem framesOf_cons (p : Nat → Bool) (r : Nat) (L : List Nat) :
    ((r :: L).filter p).length = (if p r then 1 else 0) + (L.filter p).length := by
  by_cases h : p r <;> simp [h, Nat.add_comm]

theorem framesOf_of_retires {s t : State} {r : Nat} (records : s.recordLaw) (h : Retires s r t) (n : Nat) :
    framesOf s n = (if (s.frame r).ring = n then 1 else 0) + framesOf t n := by
  have others : ∀ q ∈ t.inUse, t.frame q = s.frame q := fun q mem => h.others q fun (here : q = r) => by
    simp [mem_inUse, here, h.reset, FrameRecord.reset] at mem
  unfold framesOf
  rw [((inUse_of_retires records h).filter _).length_eq, framesOf_cons]
  simp only [decide_eq_true_eq]
  exact congrArg (_ + List.length ·) (List.filter_congr fun q mem => by rw [others q mem])

theorem framesOf_of_joins {s t : State} {n : Nat} {d : Descriptor} {need r : Nat} (records : s.recordLaw)
    (h : Joins s n d need r t) (m : Nat) : framesOf t m = (if n = m then 1 else 0) + framesOf s m := by
  obtain ⟨unused, used⟩ := inUse_of_joins records h
  have joined : t.frame r = _ := (h.frame r).trans (if_pos rfl)
  have others : ∀ q ∈ s.inUse, t.frame q = s.frame q := fun q mem =>
    (h.frame q).trans (if_neg fun (here : q = r) => unused (here ▸ mem))
  unfold framesOf
  rw [(used.filter _).length_eq, framesOf_cons]
  simp only [decide_eq_true_eq, joined, admittedRecord]
  exact congrArg (_ + List.length ·) (List.filter_congr fun q mem => by rw [others q mem])

/-! ### The ring that a fetch slot reads for (R43, R47) -/

def readLaw (s : State) : Prop :=
  (∀ n, (s.sq n).reading = true → (s.sq n).held = none) ∧
  (∀ n, (s.sq n).reading = true ↔ ∃ i k, s.slot i = .descRead n k) ∧
  ∀ i j n k m, s.slot i = .descRead n k → s.slot j = .descRead n m → i = j

theorem readLaw_of_same {s t : State} (reading : ∀ m, (t.sq m).reading = (s.sq m).reading)
    (held : ∀ m, (t.sq m).held = (s.sq m).held ∨ (t.sq m).held = none)
    (slots : ∀ i n k, t.slot i = .descRead n k ↔ s.slot i = .descRead n k) (law : readLaw s) : readLaw t := by
  obtain ⟨apart, reads, unique⟩ := law
  refine ⟨fun n is_read => ?_, fun n => ?_, fun i j n k m => ?_⟩
  · rcases held n with same | none
    · rw [same]; exact apart n (reading n ▸ is_read)
    · exact none
  · simp only [reading, slots, reads]
  · rw [slots, slots]; exact unique i j n k m

/-- A slot begins to read for a ring that neither reads nor holds. -/
theorem readLaw_of_begun {s t : State} {i n k : Nat} (idle : s.slot i = .idle) (unread : (s.sq n).reading = false)
    (unheld : (s.sq n).held = none) (held : ∀ m, (t.sq m).held = (s.sq m).held)
    (reading : ∀ m, (t.sq m).reading = if m = n then true else (s.sq m).reading)
    (slots : ∀ j, t.slot j = if j = i then .descRead n k else s.slot j) (law : readLaw s) : readLaw t := by
  obtain ⟨apart, reads, unique⟩ := law
  have none_reads : ∀ j k, s.slot j ≠ .descRead n k := fun j k at_slot => by
    rw [(reads n).mpr ⟨j, k, at_slot⟩] at unread; cases unread
  refine ⟨fun m is_read => ?_, fun m => ?_, fun a b m x y at_a at_b => ?_⟩
  · rw [held]
    by_cases here : m = n
    · rw [here, unheld]
    · exact apart m (by simpa [reading, here] using is_read)
  · rw [reading]
    by_cases here : m = n
    · simp only [here, if_true, true_iff]
      exact ⟨i, k, by rw [slots, if_pos rfl]⟩
    · rw [if_neg here, reads]
      refine ⟨fun ⟨j, x, at_slot⟩ => ⟨j, x, ?_⟩, fun ⟨j, x, at_slot⟩ => ⟨j, x, ?_⟩⟩
      · rw [slots, if_neg (fun same => by rw [same, idle] at at_slot; cases at_slot)]
        exact at_slot
      · rw [slots] at at_slot
        split at at_slot
        · cases at_slot; exact absurd rfl here
        · exact at_slot
  · rw [slots] at at_a at_b
    split at at_a <;> split at at_b
    · next a_here b_here => rw [a_here, b_here]
    · cases at_a; exact absurd at_b (none_reads b y)
    · cases at_b; exact absurd at_a (none_reads a x)
    · exact unique a b m x y at_a at_b

/-- A slot ends its read for a ring. -/
theorem readLaw_of_ended {s t : State} {i n k : Nat} {x : FetchSlot} (at_slot : s.slot i = .descRead n k)
    (ended : ∀ m j, x ≠ .descRead m j) (held : ∀ m, m ≠ n → (t.sq m).held = (s.sq m).held)
    (reading : ∀ m, (t.sq m).reading = if m = n then false else (s.sq m).reading)
    (slots : ∀ j, t.slot j = if j = i then x else s.slot j) (law : readLaw s) : readLaw t := by
  obtain ⟨apart, reads, unique⟩ := law
  have before : ∀ j m y, t.slot j = .descRead m y → j ≠ i ∧ s.slot j = .descRead m y := fun j m y at_j => by
    rw [slots] at at_j
    split at at_j
    · exact absurd at_j (ended m y)
    · next other => exact ⟨other, at_j⟩
  refine ⟨fun m is_read => ?_, fun m => ?_, fun a b m y z at_a at_b =>
    unique a b m y z (before a m y at_a).2 (before b m z at_b).2⟩
  · by_cases here : m = n
    · simp [reading, here] at is_read
    · rw [held m here]
      exact apart m (by simpa [reading, here] using is_read)
  · rw [reading]
    by_cases here : m = n
    · simp only [here, if_true, Bool.false_eq_true, false_iff]
      rintro ⟨j, y, at_j⟩
      obtain ⟨other, at_j⟩ := before j n y at_j
      exact other (unique j i n y k at_j at_slot)
    · rw [if_neg here, reads]
      refine ⟨fun ⟨j, y, at_j⟩ => ⟨j, y, ?_⟩, fun ⟨j, y, at_j⟩ => ⟨j, y, (before j m y at_j).2⟩⟩
      rw [slots, if_neg (fun same => by rw [same, at_slot] at at_j; cases at_j; exact here rfl)]
      exact at_j

/-! ### Reserved counts (R121) -/

/-- The descriptors in flight of a ring, as far as it is bound to a completion ring. -/
def boundCount (s : State) (c n : Nat) : Nat :=
  if (s.sq n).state ≠ .absent ∧ (s.sq n).cq = c then (s.sq n).inFlight else 0

/-- The descriptors in flight of the rings bound to a completion ring. -/
def boundSum (s : State) (c : Nat) : Nat :=
  (((List.range 32).filter fun n => decide ((s.sq n).state ≠ .absent ∧ (s.sq n).cq = c)).map
    fun n => (s.sq n).inFlight).sum

structure RingLaw (s : State) : Prop where
  absent : ∀ n, (s.sq n).state = .absent → (s.sq n).inFlight = 0
  beyond : ∀ n, 32 ≤ n → (s.sq n).state = .absent
  bound : ∀ n, (s.sq n).state ≠ .absent → (s.cq (s.sq n).cq).state = .active
  reserved : ∀ c, (s.cq c).reserved = boundSum s c

/-- What the law reads of a submission ring. -/
def sameRing (c d : SqContext) : Prop :=
  (d.state = .absent ↔ c.state = .absent) ∧ d.cq = c.cq ∧ d.inFlight = c.inFlight

theorem sameRing_refl (c : SqContext) : sameRing c c := ⟨.rfl, rfl, rfl⟩

theorem boundSum_congr {s t : State} (same : ∀ m, sameRing (s.sq m) (t.sq m)) (c : Nat) : boundSum t c = boundSum s c :=
  sum_filter_congr (fun m _ => by
    obtain ⟨state, cq, -⟩ := same m
    simp only [cq, ne_eq, state]) fun m _ => (same m).2.2

/-- The sum with the term of one ring apart. -/
theorem boundSum_split (s : State) (c : Nat) {n : Nat} (small : n < 32) :
    boundSum s c = boundCount s c n + ((((List.range 32).erase n).filter fun m =>
      decide ((s.sq m).state ≠ .absent ∧ (s.sq m).cq = c)).map fun m => (s.sq m).inFlight).sum := by
  have named := List.perm_cons_erase (List.mem_range.mpr small)
  rw [boundSum, ((named.filter _).map _).sum_eq, sum_filter_cons]
  simp only [boundCount, decide_eq_true_eq]

/-- One ring changes: the sums differ by its term. -/
theorem boundSum_change {s t : State} (c : Nat) {n : Nat} (small : n < 32)
    (others : ∀ m, m ≠ n → sameRing (s.sq m) (t.sq m)) :
    boundSum t c + boundCount s c n = boundSum s c + boundCount t c n := by
  have rest : ((((List.range 32).erase n).filter fun m =>
      decide ((t.sq m).state ≠ .absent ∧ (t.sq m).cq = c)).map fun m => (t.sq m).inFlight).sum =
      ((((List.range 32).erase n).filter fun m =>
        decide ((s.sq m).state ≠ .absent ∧ (s.sq m).cq = c)).map fun m => (s.sq m).inFlight).sum := by
    have apart : ∀ m ∈ (List.range 32).erase n, m ≠ n := fun m mem => (List.nodup_range.mem_erase_iff.mp mem).1
    refine sum_filter_congr (fun m mem => ?_) fun m mem => (others m (apart m mem)).2.2
    obtain ⟨state, cq, -⟩ := others m (apart m mem)
    simp only [cq, ne_eq, state]
  rw [boundSum_split s c small, boundSum_split t c small, rest]
  omega

theorem boundCount_le (s : State) (c : Nat) {n : Nat} (small : n < 32) : boundCount s c n ≤ boundSum s c := by
  rw [boundSum_split s c small]
  omega

theorem RingLaw.of_same {s t : State} (law : RingLaw s) (rings : ∀ m, sameRing (s.sq m) (t.sq m))
    (completions : ∀ c, (t.cq c).state = (s.cq c).state ∧ (t.cq c).reserved = (s.cq c).reserved) : RingLaw t where
  absent n none := by
    obtain ⟨state, -, inFlight⟩ := rings n
    rw [inFlight]; exact law.absent n (state.mp none)
  beyond n large := (rings n).1.mpr (law.beyond n large)
  bound n present := by
    obtain ⟨state, cq, -⟩ := rings n
    rw [(completions _).1, cq]; exact law.bound n (mt state.mpr present)
  reserved c := by rw [(completions c).2, boundSum_congr rings]; exact law.reserved c

/-- One ring changes, and the reserved counts with it. -/
theorem RingLaw.of_change {s t : State} (law : RingLaw s) {n : Nat} (small : n < 32)
    (others : ∀ m, m ≠ n → sameRing (s.sq m) (t.sq m)) (states : ∀ c, (t.cq c).state = (s.cq c).state)
    (reserved : ∀ c, (t.cq c).reserved + boundCount s c n = (s.cq c).reserved + boundCount t c n)
    (absent : (t.sq n).state = .absent → (t.sq n).inFlight = 0)
    (bound : (t.sq n).state ≠ .absent → (t.cq (t.sq n).cq).state = .active) : RingLaw t where
  absent m none := by
    by_cases here : m = n
    · exact here ▸ absent (here ▸ none)
    · obtain ⟨state, -, inFlight⟩ := others m here
      rw [inFlight]; exact law.absent m (state.mp none)
  beyond m large := (others m (by omega)).1.mpr (law.beyond m large)
  bound m present := by
    by_cases here : m = n
    · exact here ▸ bound (here ▸ present)
    · obtain ⟨state, cq, -⟩ := others m here
      rw [states, cq]; exact law.bound m (mt state.mpr present)
  reserved c := by
    have sums := boundSum_change c small others
    have counts := reserved c
    have before := law.reserved c
    omega

/-- A descriptor of the ring is completed: its in-flight count and its completion ring's reserved count fall by one. -/
theorem RingLaw.of_lowered {s t : State} (law : RingLaw s) {n : Nat} (some_flight : 1 ≤ (s.sq n).inFlight)
    (others : ∀ m, m ≠ n → t.sq m = s.sq m) (state : (t.sq n).state = (s.sq n).state) (cq : (t.sq n).cq = (s.sq n).cq)
    (inFlight : (t.sq n).inFlight = (s.sq n).inFlight - 1) (states : ∀ c, (t.cq c).state = (s.cq c).state)
    (reserved : ∀ c, (t.cq c).reserved = (s.cq c).reserved - if c = (s.sq n).cq then 1 else 0) : RingLaw t := by
  have present : (s.sq n).state ≠ .absent := fun none => by have := law.absent n none; omega
  have small : n < 32 := Nat.lt_of_not_le fun large => present (law.beyond n large)
  refine law.of_change small (fun m other => by rw [others m other]; exact sameRing_refl _) states (fun c => ?_)
    (fun none => absurd (state ▸ none) present) fun _ => by rw [states, cq]; exact law.bound n present
  have within := boundCount_le s c small
  have before := law.reserved c
  have after := reserved c
  simp only [boundCount, state, cq, inFlight] at within ⊢
  by_cases bound : (s.sq n).cq = c
  · simp [present, bound] at within after ⊢
    omega
  · simp [bound, Ne.symm bound] at after ⊢
    exact after

/-! ### The counts in RUNNING -/

structure Counted (s : State) : Prop where
  records : s.recordLaw
  count : countLaw s
  read : readLaw s
  ring : RingLaw s

theorem Counted.flight_of_reading {s : State} (law : Counted s) {n : Nat} (h : (s.sq n).reading = true) :
    1 ≤ (s.sq n).inFlight := by
  rw [law.count, if_pos h]
  omega

theorem Counted.flight_of_slot {s : State} (law : Counted s) {i n k : Nat} (h : s.slot i = .descRead n k) :
    (s.sq n).reading = true ∧ (s.sq n).held = none ∧ 1 ≤ (s.sq n).inFlight := by
  have reading := (law.read.2.1 n).mpr ⟨i, k, h⟩
  exact ⟨reading, law.read.1 n reading, law.flight_of_reading reading⟩

theorem Counted.flight_of_held {s : State} (law : Counted s) {n : Nat} {h : HeldCopy} (held : (s.sq n).held = some h) :
    (s.sq n).reading = false ∧ 1 ≤ (s.sq n).inFlight := by
  refine ⟨?_, ?_⟩
  · by_contra reading
    rw [law.read.1 n (by simpa using reading)] at held
    cases held
  · rw [law.count, held]
    simp only [Option.isSome_some, if_true]
    omega

theorem framesOf_pos {s : State} {r : Nat} (records : s.recordLaw) (used : (s.frame r).state ≠ .free) :
    1 ≤ framesOf s (s.frame r).ring := by
  have small : r < 2048 := Nat.lt_of_not_le fun large => used (records.2.2 r large)
  exact List.length_pos_iff.mpr (List.ne_nil_of_mem
    (List.mem_filter.mpr ⟨mem_inUse.mpr ⟨small, used⟩, decide_eq_true rfl⟩))

theorem countLaw_of_same {s t : State} (law : countLaw s) (rings : ∀ m, (t.sq m).inFlight = (s.sq m).inFlight ∧
    (t.sq m).reading = (s.sq m).reading ∧ (t.sq m).held = (s.sq m).held) (frames : ∀ m, framesOf t m = framesOf s m) :
    countLaw t := fun m => by
  obtain ⟨inFlight, reading, held⟩ := rings m
  rw [inFlight, reading, held, frames]
  exact law m

/-- One ring changes, and its frames with it. -/
theorem countLaw_of_change {s t : State} (law : countLaw s) {n : Nat} (others : ∀ m, m ≠ n → t.sq m = s.sq m)
    (frames : ∀ m, m ≠ n → framesOf t m = framesOf s m)
    (own : (t.sq n).inFlight =
      (if (t.sq n).reading then 1 else 0) + (if (t.sq n).held.isSome then 1 else 0) + framesOf t n) : countLaw t :=
  fun m => by
    by_cases here : m = n
    · exact here ▸ own
    · rw [others m here, frames m here]
      exact law m

/-- The descriptor counts read the same. -/
theorem Counted.of_same {s t : State} (law : Counted s) (standing : Standing s t)
    (rings : ∀ m, sameRing (s.sq m) (t.sq m) ∧ (t.sq m).reading = (s.sq m).reading ∧ (t.sq m).held = (s.sq m).held)
    (slots : ∀ i n k, t.slot i = .descRead n k ↔ s.slot i = .descRead n k)
    (completions : ∀ c, (t.cq c).state = (s.cq c).state ∧ (t.cq c).reserved = (s.cq c).reserved) : Counted t where
  records := recordLaw_of_standing standing law.records
  count := countLaw_of_same law.count (fun m => ⟨(rings m).1.2.2, (rings m).2⟩) (framesOf_of_standing standing)
  read := readLaw_of_same (fun m => (rings m).2.1) (fun m => .inl (rings m).2.2) slots law.read
  ring := law.ring.of_same (fun m => (rings m).1) completions

theorem Counted.of_alike {s t : State} (law : Counted s) (h : Alike s t) : Counted t :=
  law.of_same (.of_alike h) (fun m => by rw [h.sq]; exact ⟨sameRing_refl _, rfl, rfl⟩) (fun i n k => by rw [h.slot])
    fun c => by rw [h.cq]; exact ⟨rfl, rfl⟩

theorem Counted.of_blank {s : State} (records : s.recordLaw) (h : blank s) : Counted s := by
  obtain ⟨dfu, cu, frames⟩ := h
  have sq : ∀ n, s.sq n = SqContext.reset := fun n => by rw [State.sq, dfu]; rfl
  have slot : ∀ i, s.slot i = .idle := fun i => by rw [State.slot, dfu]; rfl
  have cq : ∀ n, s.cq n = CqContext.reset := fun n => by rw [State.cq, cu]; rfl
  have unused : s.inUse = [] := List.filter_eq_nil_iff.mpr fun r _ => by
    have free : (s.frame r).state = .free := by rw [State.frame, frames]; rfl
    simp [free]
  refine ⟨records, fun n => ?_, ⟨fun n => ?_, fun n => ?_, fun i j n k m at_slot => ?_⟩, ⟨fun n _ => ?_, fun n _ => ?_,
    fun n present => ?_, fun c => ?_⟩⟩
  · simp [sq, SqContext.reset, framesOf, unused]
  · simp [sq, SqContext.reset]
  · simp [sq, slot, SqContext.reset]
  · rw [slot] at at_slot; cases at_slot
  · rw [sq]; rfl
  · rw [sq]; rfl
  · exact absurd (by rw [sq]; rfl) present
  · simp [cq, CqContext.reset, boundSum, sq, SqContext.reset]

/-- What a record written at a completion ring's tail leaves of its context. -/
theorem written_state (c : CqContext) :
    (coalesced (recorded c)).state = c.state ∧ (coalesced (recorded c)).reserved = c.reserved - 1 := by
  obtain ⟨state, -, -, -, reserved⟩ := coalesced_ledger (recorded c)
  exact ⟨state, reserved⟩

/-- A frame retires: its ring has one frame less in flight. -/
theorem Counted.of_retires {s u : State} {r : Nat} {g : FrameRecord} (law : Counted s)
    (retires : Retires s r (retireRecord r u)) (changed : u.frame r = g) (ring : g.ring = (s.frame r).ring)
    (sq : ∀ m, u.sq m = s.sq m) (slot : ∀ i, u.slot i = s.slot i) (cq : ∀ c, u.cq c = s.cq c) :
    Counted (retireRecord r u) := by
  have frames := framesOf_of_retires law.records retires
  have flight : 1 ≤ (s.sq (s.frame r).ring).inFlight := by
    have counted := law.count (s.frame r).ring
    have some_frame := framesOf_pos law.records retires.used
    omega
  refine ⟨recordLaw_of_retires retires law.records, ?_, ?_, ?_⟩
  · refine countLaw_of_change law.count (n := (s.frame r).ring) (fun m other => by simp [changed, ring, other, sq])
      (fun m other => by have := frames m; rw [if_neg (Ne.symm other)] at this; omega) ?_
    have split := frames (s.frame r).ring
    have counted := law.count (s.frame r).ring
    simp only [if_true] at split
    simp only [retireRecord_sq, changed, ring, if_true, sq]
    omega
  · refine readLaw_of_same (fun m => ?_) (fun m => .inl ?_) (fun i n k => by simp [slot]) law.read
    · by_cases here : m = g.ring <;> simp [changed, here, sq]
    · by_cases here : m = g.ring <;> simp [changed, here, sq]
  · refine law.ring.of_lowered flight (fun m other => by simp [changed, ring, other, sq]) (by simp [changed, ring, sq])
      (by simp [changed, ring, sq]) (by simp [changed, ring, sq]) (fun c => ?_) fun c => ?_
    · by_cases here : c = (s.sq (s.frame r).ring).cq <;> simp [changed, ring, sq, cq, here, written_state]
    · by_cases here : c = (s.sq (s.frame r).ring).cq <;> simp [changed, ring, sq, cq, here, written_state]

/-- A descriptor in flight ends without a frame. -/
theorem Counted.of_ended {s t : State} {n : Nat} (law : Counted s) (standing : Standing s t)
    (flight : 1 ≤ (s.sq n).inFlight) (read : readLaw t) (others : ∀ m, m ≠ n → t.sq m = s.sq m)
    (own : (t.sq n).state = (s.sq n).state ∧ (t.sq n).cq = (s.sq n).cq ∧ (t.sq n).inFlight = (s.sq n).inFlight - 1)
    (left : (if (t.sq n).reading then 1 else 0) + (if (t.sq n).held.isSome then 1 else 0) + 1 =
      (if (s.sq n).reading then 1 else 0) + (if (s.sq n).held.isSome then 1 else 0))
    (states : ∀ c, (t.cq c).state = (s.cq c).state)
    (reserved : ∀ c, (t.cq c).reserved = (s.cq c).reserved - if c = (s.sq n).cq then 1 else 0) : Counted t := by
  obtain ⟨state, cq, inFlight⟩ := own
  refine ⟨recordLaw_of_standing standing law.records, ?_, read,
    law.ring.of_lowered flight others state cq inFlight states reserved⟩
  refine countLaw_of_change law.count others (fun m _ => framesOf_of_standing standing m) ?_
  have counted := law.count n
  have frames := framesOf_of_standing standing n
  omega

theorem mem_cqBound {s : State} {c n : Nat} (free : cqBound s c = false) (small : n < 32)
    (present : (s.sq n).state ≠ .absent) : (s.sq n).cq ≠ c := by
  simp only [cqBound, List.any_eq_false, Bool.and_eq_true, decide_eq_true_eq, not_and] at free
  exact free n (List.mem_range.mpr small) present

/-- No ring is bound to a completion ring that is not ACTIVE. -/
theorem boundSum_eq_zero {s : State} {c : Nat}
    (unbound : ∀ n, n < 32 → (s.sq n).state ≠ .absent → (s.sq n).cq ≠ c) : boundSum s c = 0 := by
  unfold boundSum
  rw [List.filter_eq_nil_iff.mpr]
  · rfl
  · intro n mem both
    obtain ⟨present, bound⟩ := of_decide_eq_true both
    exact unbound n (List.mem_range.mp mem) present bound

/-- In RUNNING a piece keeps the counts. -/
theorem piece_counted {s t : State} (h : Piece s t) (running : s.hp.device = .running) (law : Counted s) : Counted t := by
  have records := piece_recordLaw h law.records
  cases h with
  | quiet h => exact law.of_alike h.toAlike
  | start _ h => exact law.of_alike h
  | halt h => exact law.of_alike h
  | clear bm dfu cu => exact .of_blank records ⟨dfu, cu, by rw [bm]; rfl⟩
  | discard i stopped => exact absurd running stopped
  | record r g used same within =>
    exact law.of_same (standing_record used same within) (by simp [sameRing]) (by simp) (by simp)
  | leave r g from_queue same apart =>
    exact law.of_same (standing_leave from_queue same apart) (by simp [sameRing]) (by simp) (by simp)
  | retireQueued r g _ from_queue same =>
    exact law.of_retires (retires_queued from_queue same) (by simp) same.1 (by simp) (by simp) (by simp)
  | retireApart r g _ apart same =>
    exact law.of_retires (retires_apart apart same) (by simp) same.1 (by simp) (by simp) (by simp)
  | byte c o x =>
    exact law.of_same (.of_frames (by simp) (by simp) (by simp [keepsShare])) (by simp [sameRing]) (by simp) (by simp)
  | flow n c same =>
    have standing : Standing s (s.setFlow n c) := by
      refine .of_frames (by simp) (by simp) fun f => ?_
      rw [State.flow_setFlow]
      split
      · next own => exact own ▸ same.2
      · exact keepsShare_refl _
    exact law.of_same standing (by simp [sameRing]) (by simp) (by simp)
  | slot i x _ before after =>
    refine law.of_same (.of_frames (by simp) (by simp) (by simp [keepsShare])) (by simp [sameRing]) (fun j n k => ?_)
      (by simp)
    by_cases here : j = i
    · simp [here, after n k, before n k]
    · simp [here]
  | ring n c same =>
    obtain ⟨present, stays_present, cq, -, inFlight, reading, held⟩ := same
    refine law.of_same (.of_frames (by simp) (by simp) (by simp [keepsShare])) (fun m => ?_) (by simp) (by simp)
    by_cases here : m = n
    · simp [here, sameRing, present, stays_present, cq, inFlight, reading, held]
    · simp [here, sameRing]
  | completions n c _ same =>
    obtain ⟨state, -, -, -, reserved⟩ := same
    refine law.of_same (.of_frames (by simp) (by simp) (by simp [keepsShare])) (by simp [sameRing]) (by simp) fun m => ?_
    by_cases here : m = n <;> simp [here, state, reserved]
  | consume n v =>
    refine law.of_same (.of_frames (by simp) (by simp) (by simp [keepsShare])) (by simp [sameRing]) (by simp) fun m => ?_
    by_cases here : m = n <;> simp [here]
  | read i n _ idle may =>
    obtain ⟨active, -, unread, unheld, -, -⟩ := mayRead_iff.mp may
    have standing : Standing s (grantRead i n s) := .of_frames (by simp) (by simp) (by simp [keepsShare])
    have small : n < 32 := Nat.lt_of_not_le fun large => by rw [law.ring.beyond n large] at active; cases active
    refine ⟨records, ?_, ?_, ?_⟩
    · refine countLaw_of_change law.count (n := n) (fun m other => by simp [other])
        (fun m _ => framesOf_of_standing standing m) ?_
      have counted := law.count n
      simp only [unread, unheld] at counted
      simp [framesOf_of_standing standing, unheld]
      simpa [Nat.add_comm] using counted
    · refine readLaw_of_begun (k := (s.sq n).head) idle unread unheld (fun m => ?_) (fun m => ?_) (by simp) law.read
      · by_cases here : m = n <;> simp [here]
      · by_cases here : m = n <;> simp [here]
    · refine law.ring.of_change small (fun m other => by simp [other, sameRing]) (fun c => ?_) (fun c => ?_)
        (fun none => by simp [active] at none) fun _ => ?_
      · by_cases here : c = (s.sq n).cq <;> simp [here]
      · by_cases here : c = (s.sq n).cq
        · simp [here, boundCount, active]; omega
        · simp [here, Ne.symm here, boundCount]
      · simp [law.ring.bound n (by rw [active]; simp)]
  | release i n k _ at_slot =>
    obtain ⟨reading, unheld, flight⟩ := law.flight_of_slot at_slot
    refine law.of_ended (n := n) (.of_frames (by simp) (by simp) (by simp [keepsShare])) flight ?_
      (fun m other => by simp [other]) (by simp) (by simp [reading, unheld]) (fun c => ?_) fun c => ?_
    · refine readLaw_of_ended at_slot (x := .idle) (by simp) (fun m other => by simp [other]) (fun m => ?_) (by simp) law.read
      by_cases here : m = n <;> simp [here]
    · by_cases here : c = (s.sq n).cq <;> simp [here]
    · by_cases here : c = (s.sq n).cq <;> simp [here]
  | refuse i n k tag st sub _ at_slot =>
    obtain ⟨reading, unheld, flight⟩ := law.flight_of_slot at_slot
    refine law.of_ended (n := n) (.of_frames (by simp) (by simp) (by simp [keepsShare])) flight ?_
      (fun m other => by simp [other]) (by simp) (by simp [reading, unheld]) (fun c => ?_) fun c => ?_
    · refine readLaw_of_ended at_slot (x := .idle) (by simp) (fun m other => by simp [other]) (fun m => ?_) (by simp) law.read
      by_cases here : m = n <;> simp [here]
    · by_cases here : c = (s.sq n).cq <;> simp [here, written_state]
    · by_cases here : c = (s.sq n).cq <;> simp [here, written_state]
  | drop n h tag st sub _ held =>
    obtain ⟨unread, flight⟩ := law.flight_of_held held
    refine law.of_ended (n := n) (.of_frames (by simp) (by simp) (by simp [keepsShare])) flight ?_
      (fun m other => by simp [other]) (by simp) (by simp [unread, held]) (fun c => ?_) fun c => ?_
    · refine readLaw_of_same (fun m => ?_) (fun m => ?_) (by simp) law.read
      · by_cases here : m = n <;> simp [here]
      · by_cases here : m = n <;> simp [here]
    · by_cases here : c = (s.sq n).cq <;> simp [here, written_state]
    · by_cases here : c = (s.sq n).cq <;> simp [here, written_state]
  | hold i n k h _ at_slot =>
    obtain ⟨reading, unheld, flight⟩ := law.flight_of_slot at_slot
    have standing : Standing s ((holdDescriptor n h (takeHead n s)).setSlot i .idle) :=
      .of_frames (by simp) (by simp) (by simp [keepsShare])
    refine ⟨records, ?_, ?_, ?_⟩
    · refine countLaw_of_change law.count (n := n) (fun m other => by simp [other])
        (fun m _ => framesOf_of_standing standing m) ?_
      have counted := law.count n
      simpa [framesOf_of_standing standing, reading, unheld] using counted
    · refine readLaw_of_ended at_slot (x := .idle) (by simp) (fun m other => by simp [other]) (fun m => ?_) (by simp) law.read
      by_cases here : m = n <;> simp [here]
    · refine law.ring.of_same (fun m => ?_) (by simp)
      by_cases here : m = n <;> simp [here, sameRing]
  | createRing n c _ small absent inFlight reading held present active =>
    have standing : Standing s (s.setSq n c) := .of_frames (by simp) (by simp) (by simp [keepsShare])
    have counted := law.count n
    rw [law.ring.absent n absent] at counted
    have unread : (s.sq n).reading = false := by
      by_contra reads
      rw [if_pos (by simpa using reads)] at counted
      omega
    refine ⟨records, ?_, ?_, ?_⟩
    · refine countLaw_of_change law.count (n := n) (fun m other => by simp [other])
        (fun m _ => framesOf_of_standing standing m) ?_
      simp [framesOf_of_standing standing, inFlight, reading, held]
      omega
    · refine readLaw_of_same (fun m => ?_) (fun m => ?_) (by simp) law.read
      · by_cases here : m = n
        · simp [here, reading, unread]
        · simp [here]
      · by_cases here : m = n <;> simp [here, held]
    · refine law.ring.of_change small (fun m other => by simp [other, sameRing]) (by simp) (fun m => ?_)
        (fun none => by simp [inFlight]) fun _ => by simp [active]
      simp [boundCount, absent, inFlight]
  | removeRing n _ deleting none =>
    have standing : Standing s (s.setSq n SqContext.reset) := .of_frames (by simp) (by simp) (by simp [keepsShare])
    have counted := law.count n
    rw [none] at counted
    have unread : (s.sq n).reading = false := by
      by_contra reads
      rw [if_pos (by simpa using reads)] at counted
      omega
    have small : n < 32 := Nat.lt_of_not_le fun large => by rw [law.ring.beyond n large] at deleting; cases deleting
    refine ⟨records, ?_, ?_, ?_⟩
    · refine countLaw_of_change law.count (n := n) (fun m other => by simp [other])
        (fun m _ => framesOf_of_standing standing m) ?_
      rw [framesOf_of_standing standing]
      simp [SqContext.reset]
      omega
    · refine readLaw_of_same (fun m => ?_) (fun m => ?_) (by simp) law.read
      · by_cases here : m = n
        · simp [here, SqContext.reset, unread]
        · simp [here]
      · by_cases here : m = n <;> simp [here, SqContext.reset]
    · refine law.ring.of_change small (fun m other => by simp [other, sameRing]) (by simp) (fun m => ?_)
        (by simp [SqContext.reset]) (by simp [SqContext.reset])
      simp [boundCount, SqContext.reset, none]
  | createCompletions n c _ absent active _ _ _ reserved =>
    have unbound : ∀ m, m < 32 → (s.sq m).state ≠ .absent → (s.sq m).cq ≠ n := fun m _ present bound => by
      have := law.ring.bound m present
      rw [bound, absent] at this
      cases this
    refine ⟨records, countLaw_of_same law.count (by simp) fun m => framesOf_of_standing
      (.of_frames (by simp) (by simp) (by simp [keepsShare])) m, readLaw_of_same (by simp) (by simp) (by simp) law.read,
      law.ring.absent, law.ring.beyond, fun m present => ?_, fun m => ?_⟩
    · have bound := law.ring.bound m present
      simp only [State.setCq_reads, State.cq_setCq]
      split
      · exact active
      · exact bound
    · rw [boundSum_congr (s := s) (by simp [sameRing])]
      by_cases here : m = n
      · simp [here, reserved, boundSum_eq_zero unbound]
      · simpa [here] using law.ring.reserved m
  | removeCompletions n _ free =>
    have unbound : ∀ m, m < 32 → (s.sq m).state ≠ .absent → (s.sq m).cq ≠ n := fun m small present =>
      mem_cqBound free small present
    refine ⟨records, countLaw_of_same law.count (by simp) fun m => framesOf_of_standing
      (.of_frames (by simp) (by simp) (by simp [keepsShare])) m, readLaw_of_same (by simp) (by simp) (by simp) law.read,
      law.ring.absent, law.ring.beyond, fun m present => ?_, fun m => ?_⟩
    · have small : m < 32 := Nat.lt_of_not_le fun large => present (law.ring.beyond m large)
      simpa [unbound m small present] using law.ring.bound m present
    · rw [boundSum_congr (s := s) (by simp [sameRing])]
      by_cases here : m = n
      · simp [here, CqContext.reset, boundSum_eq_zero unbound]
      · simpa [here] using law.ring.reserved m

/-- An admission keeps the counts: the ring's descriptor goes from its read, or from its held copy, to a frame. -/
theorem admits_counted {s t : State} (h : Admits s t) (law : Counted s) : Counted t := by
  have records := admits_recordLaw h law.records
  cases h with
  | fresh i n k d gs r running at_slot active some_byte enabled within room first =>
    obtain ⟨reading, unheld, flight⟩ := law.flight_of_slot at_slot
    have joins : Joins s n d (cellNeed d.length) r
        ((takeHead n (admitRecord n d (cellNeed d.length) r s)).setSlot i (.payload n r gs 0 0)) :=
      ⟨first, room, enabled, within, rfl⟩
    have frames := framesOf_of_joins law.records joins
    refine ⟨records, ?_, ?_, ?_⟩
    · refine countLaw_of_change law.count (n := n) (fun m other => by simp [other])
        (fun m other => by rw [frames, if_neg (Ne.symm other), Nat.zero_add]) ?_
      have counted := law.count n
      rw [frames]
      simp [reading, unheld] at counted ⊢
      exact counted
    · refine readLaw_of_ended at_slot (x := .payload n r gs 0 0) (by simp) (fun m other => by simp [other])
        (fun m => ?_) (by simp) law.read
      by_cases here : m = n <;> simp [here]
    · refine law.ring.of_same (fun m => ?_) (by simp)
      by_cases here : m = n <;> simp [here, sameRing]
  | retried i n h gs r running idle held enabled within room first =>
    obtain ⟨unread, flight⟩ := law.flight_of_held held
    have joins : Joins s n h.descriptor h.need r
        ((clearHeld n (admitRecord n h.descriptor h.need r s)).setSlot i (.payload n r gs 0 0)) :=
      ⟨first, room, enabled, within, rfl⟩
    have frames := framesOf_of_joins law.records joins
    refine ⟨records, ?_, ?_, ?_⟩
    · refine countLaw_of_change law.count (n := n) (fun m other => by simp [other])
        (fun m other => by rw [frames, if_neg (Ne.symm other), Nat.zero_add]) ?_
      have counted := law.count n
      rw [frames]
      simp [unread, held] at counted ⊢
      exact counted
    · refine readLaw_of_same (fun m => ?_) (fun m => ?_) (fun j m k => ?_) law.read
      · by_cases here : m = n <;> simp [here]
      · by_cases here : m = n <;> simp [here]
      · by_cases here : j = i <;> simp [here, idle]
    · refine law.ring.of_same (fun m => ?_) (by simp)
      by_cases here : m = n <;> simp [here, sameRing]

/-! ### The law in every device state -/

theorem descriptorLaw_iff (s : State) : (s.recordLaw ∧ s.descriptorLaw) ↔ s.recordLaw ∧
    (s.hp.device = .stopped → blank s) ∧ (s.hp.device = .running → Counted s) := by
  refine and_congr_right fun records => and_congr_right fun _ => forall_congr' fun _ => ⟨?_, fun law => ?_⟩
  · rintro ⟨count, apart, reads, unique, absent, beyond, bound, reserved⟩
    exact ⟨records, count, ⟨apart, reads, unique⟩, absent, beyond, bound, reserved⟩
  · obtain ⟨-, count, ⟨apart, reads, unique⟩, absent, beyond, bound, reserved⟩ := law
    exact ⟨count, apart, reads, unique, absent, beyond, bound, reserved⟩

/-- What a piece can do to the device's state. -/
theorem piece_device {s t : State} (h : Piece s t) : t.hp.device = s.hp.device ∨
    ((s.hp.device = .stopped ∨ blank s) ∧ Alike s t) ∨ (t.hp.device ≠ .running ∧ t.hp.device ≠ .stopped) ∨ blank t := by
  cases h with
  | quiet h => exact .inl h.device
  | start from_reset h => exact .inr (.inl ⟨from_reset, h⟩)
  | halt _ stopped halted => exact .inr (.inr (.inl ⟨stopped, halted⟩))
  | clear bm dfu cu => exact .inr (.inr (.inr ⟨dfu, cu, by rw [bm]; rfl⟩))
  | _ => exact .inl (by simp)

theorem blank_reads {s : State} (h : blank s) : (∀ n, s.sq n = SqContext.reset) ∧ (∀ i, s.slot i = .idle) ∧
    (∀ n, s.cq n = CqContext.reset) ∧ ∀ r, s.frame r = FrameRecord.reset := by
  obtain ⟨dfu, cu, frames⟩ := h
  exact ⟨fun n => by rw [State.sq, dfu]; rfl, fun i => by rw [State.slot, dfu]; rfl, fun n => by rw [State.cq, cu]; rfl,
    fun r => by rw [State.frame, frames]; rfl⟩

/-- In STOPPED the rings and the records have their reset values. -/
theorem piece_stopped {s t : State} (h : Piece s t) (law : s.hp.device = .stopped → blank s)
    (stopped : t.hp.device = .stopped) : blank t := by
  have before : ∀ {u : State}, u.hp.device = s.hp.device → u.hp.device = .stopped → blank s := fun same now =>
    law (same ▸ now)
  cases h with
  | quiet h => exact h.blank (before h.device stopped)
  | start from_reset h => exact h.blank (from_reset.elim law id)
  | halt _ _ halted => exact absurd stopped halted
  | clear bm dfu cu => exact ⟨dfu, cu, by rw [bm]; rfl⟩
  | byte c o x => exact before (by simp) stopped
  | record r g used =>
    obtain ⟨-, -, -, frame⟩ := blank_reads (before (by simp) stopped)
    exact absurd (by rw [frame]; rfl) used
  | leave r g from_queue =>
    obtain ⟨-, -, -, frame⟩ := blank_reads (before (by simp) stopped)
    exact absurd (frame r ▸ from_queue) not_queued_reset
  | flow n c => exact before (by simp) stopped
  | discard i =>
    obtain ⟨dfu, cu, frames⟩ := before (by simp) stopped
    refine ⟨?_, by simpa using cu, by simpa using frames⟩
    simp [State.setSlot, dfu, DfuBlock.reset, tableSet, slotUnlisted, tableErase]
  | ring n c same =>
    obtain ⟨sq, -, -, -⟩ := blank_reads (before (by simp) stopped)
    exact absurd (by rw [sq]; rfl) same.1
  | completions n c running => exact absurd stopped (by simpa using running)
  | consume n v present =>
    obtain ⟨-, -, cq, -⟩ := blank_reads (before (by simp) stopped)
    exact absurd (by rw [cq]; rfl) present
  | read | release | refuse | hold | drop | slot | createRing | removeRing | createCompletions | removeCompletions
  | retireQueued | retireApart => simp_all

theorem piece_descriptorLaw {s t : State} (h : Piece s t) (law : s.recordLaw ∧ s.descriptorLaw) :
    t.recordLaw ∧ t.descriptorLaw := by
  obtain ⟨records, stopped, running⟩ := (descriptorLaw_iff s).mp law
  have kept := piece_recordLaw h records
  refine (descriptorLaw_iff t).mpr ⟨kept, piece_stopped h stopped, fun runs => ?_⟩
  rcases piece_device h with same | ⟨from_reset, alike⟩ | ⟨other, -⟩ | reset
  · have before := same.symm.trans runs
    exact piece_counted h before (running before)
  · exact .of_blank kept (alike.blank (from_reset.elim stopped id))
  · exact absurd runs other
  · exact .of_blank kept reset

theorem admits_device {s t : State} (h : Admits s t) : s.hp.device = .running ∧ t.hp.device = .running := by
  cases h with
  | fresh _ _ _ _ _ _ running => exact ⟨running, by simpa using running⟩
  | retried _ _ _ _ _ running => exact ⟨running, by simpa using running⟩

theorem admits_descriptorLaw {s t : State} (h : Admits s t) (law : s.recordLaw ∧ s.descriptorLaw) :
    t.recordLaw ∧ t.descriptorLaw := by
  obtain ⟨records, stopped, running⟩ := (descriptorLaw_iff s).mp law
  obtain ⟨before, after⟩ := admits_device h
  have counted := admits_counted h (running before)
  exact (descriptorLaw_iff t).mpr ⟨counted.records, fun halted => absurd (after.symm.trans halted) (by simp),
    fun _ => counted⟩

/-- Settles O56: a piece raises or lowers the two counts of one ring together, or neither. -/
theorem descriptorLawKept : Obligations.DescriptorLawKept := by
  intro s t next
  refine ⟨step_keeps_of_made (fun _ _ law => law) (fun _ _ => piece_limitLaw) (fun _ _ => admits_limitLaw) next,
    fun records law => ?_⟩
  exact (step_keeps_of_made (L := fun s => s.recordLaw ∧ s.descriptorLaw) (fun _ _ law => law)
    (fun _ _ => piece_descriptorLaw) (fun _ _ => admits_descriptorLaw) next ⟨records, law⟩).2

end Sys2Proof.Proofs.DescriptorCounts

/-! The law of the completion rings (R120): reserved slots and records not yet consumed stay below the ring's size. -/

namespace Sys2Proof.Proofs.CompletionLedger

open Sys2Proof Sys2Proof.Machine Sys2Proof.Proofs.Datapath Sys2Proof.Proofs.Readings Sys2Proof.Proofs.Steps
open Sys2Proof.Proofs.DescriptorCounts

/-- Reserved slots and records not yet consumed are below the ring's size (R120). -/
def fitsRing (c : CqContext) : Prop :=
  c.tail < c.size ∧ c.consumer < c.size ∧ c.reserved + ringDistance c.size c.tail c.consumer ≤ c.size - 1

/-! ### Positions on a ring -/

theorem ringDistance_cases {size a b : Nat} (ha : a < size) (hb : b < size) :
    ringDistance size a b = if b ≤ a then a - b else a + size - b := by
  unfold ringDistance
  split
  · rw [show a + size - b = a - b + size by omega, Nat.add_mod_right, Nat.mod_eq_of_lt (by omega)]
  · rw [Nat.mod_eq_of_lt (by omega)]

theorem advance_cases {size a : Nat} (ha : a < size) : advance size a = if a + 1 = size then 0 else a + 1 := by
  unfold advance
  split
  · next wraps => rw [wraps, Nat.mod_self]
  · rw [Nat.mod_eq_of_lt (by omega)]

theorem ringDistance_advance {size a b : Nat} (ha : a < size) (hb : b < size) (room : ringDistance size a b + 1 < size) :
    advance size a < size ∧ ringDistance size (advance size a) b = ringDistance size a b + 1 := by
  have next := advance_cases ha
  have small : advance size a < size := by split at next <;> omega
  refine ⟨small, ?_⟩
  rw [ringDistance_cases ha hb] at room ⊢
  rw [ringDistance_cases small hb]
  split_ifs at next room ⊢ <;> omega

/-- A consumer index within the range of R125 leaves no more records unconsumed. -/
theorem ringDistance_consume {size tail consumer v : Nat} (ht : tail < size) (hc : consumer < size) (hv : v < size)
    (within : ringDistance size v consumer ≤ ringDistance size tail consumer) :
    ringDistance size tail v ≤ ringDistance size tail consumer := by
  rw [ringDistance_cases hv hc, ringDistance_cases ht hc] at within
  rw [ringDistance_cases ht hv, ringDistance_cases ht hc]
  split_ifs at within ⊢ <;> omega

/-! ### What the operations on a completion ring leave of it -/

theorem fitsRing_of_sameLedger {c d : CqContext} (h : sameLedger c d) (fit : fitsRing c) : fitsRing d := by
  obtain ⟨-, size, tail, consumer, reserved⟩ := h
  rw [fitsRing, size, tail, consumer, reserved]
  exact fit

theorem fitsRing_recorded {c : CqContext} (some_reserved : 1 ≤ c.reserved) (fit : fitsRing c) : fitsRing (recorded c) := by
  obtain ⟨tail, consumer, room⟩ := fit
  obtain ⟨small, distance⟩ := ringDistance_advance tail consumer (by omega)
  refine ⟨small, consumer, ?_⟩
  show c.reserved - 1 + ringDistance c.size (advance c.size c.tail) c.consumer ≤ c.size - 1
  omega

theorem fitsRing_written {c : CqContext} (some_reserved : 1 ≤ c.reserved) (fit : fitsRing c) :
    fitsRing (coalesced (recorded c)) :=
  fitsRing_of_sameLedger (coalesced_ledger _) (fitsRing_recorded some_reserved fit)

theorem fitsRing_released {c : CqContext} (fit : fitsRing c) : fitsRing { c with reserved := c.reserved - 1 } := by
  obtain ⟨tail, consumer, room⟩ := fit
  exact ⟨tail, consumer, by show c.reserved - 1 + ringDistance c.size c.tail c.consumer ≤ c.size - 1; omega⟩

theorem fitsRing_reserved {c : CqContext} (free : 1 ≤ c.free) (fit : fitsRing c) :
    fitsRing { c with reserved := c.reserved + 1 } := by
  obtain ⟨tail, consumer, room⟩ := fit
  refine ⟨tail, consumer, ?_⟩
  have left : 1 ≤ c.size - 1 - ringDistance c.size c.tail c.consumer - c.reserved := free
  show c.reserved + 1 + ringDistance c.size c.tail c.consumer ≤ c.size - 1
  omega

theorem fitsRing_consumed {c : CqContext} {v : Nat} (small : v < c.size)
    (within : consumerInRange c.size c.tail c.consumer v = true) (fit : fitsRing c) :
    fitsRing { c with consumer := v } := by
  obtain ⟨tail, consumer, room⟩ := fit
  have fewer := ringDistance_consume tail consumer small (of_decide_eq_true within)
  refine ⟨tail, small, ?_⟩
  show c.reserved + ringDistance c.size c.tail v ≤ c.size - 1
  omega

/-! ### The law -/

theorem completionRingLaw_of_cq {s t : State} (law : s.completionRingLaw)
    (rings : ∀ m, t.cq m = s.cq m ∨ ((t.cq m).state = .active → (s.cq m).state = .active ∧
      (fitsRing (s.cq m) → fitsRing (t.cq m))) ∨ fitsRing (t.cq m)) : t.completionRingLaw := fun m active => by
  rcases rings m with same | kept | fit
  · rw [same] at active ⊢; exact law m active
  · obtain ⟨before, kept⟩ := kept active
    exact kept (law m before)
  · exact fit

/-- One completion ring changes. -/
theorem completionRingLaw_of_change {s t : State} (law : s.completionRingLaw) {n : Nat} {c : CqContext}
    (rings : ∀ m, t.cq m = if m = n then c else s.cq m) (state : c.state = (s.cq n).state)
    (kept : fitsRing (s.cq n) → fitsRing c) : t.completionRingLaw :=
  completionRingLaw_of_cq law fun m => by
    by_cases here : m = n
    · exact .inr (.inl fun active => by
        rw [rings, if_pos here, here] at *
        exact ⟨state ▸ active, kept⟩)
    · exact .inl ((rings m).trans (if_neg here))

theorem reserved_of_flight {s : State} (law : Counted s) {n : Nat} (flight : 1 ≤ (s.sq n).inFlight) :
    1 ≤ (s.cq (s.sq n).cq).reserved := by
  have present : (s.sq n).state ≠ .absent := fun none => by have := law.ring.absent n none; omega
  have small : n < 32 := Nat.lt_of_not_le fun large => present (law.ring.beyond n large)
  have within := boundCount_le s (s.sq n).cq small
  rw [boundCount, if_pos ⟨present, rfl⟩, ← law.ring.reserved] at within
  omega

theorem piece_completionRingLaw {s t : State} (h : Piece s t) (counted : s.hp.device = .running → Counted s)
    (law : s.completionRingLaw) : t.completionRingLaw := by
  have written : ∀ {n : Nat}, s.hp.device = .running → 1 ≤ (s.sq n).inFlight →
      fitsRing (s.cq (s.sq n).cq) → fitsRing (coalesced (recorded (s.cq (s.sq n).cq))) := fun running flight fit =>
    fitsRing_written (reserved_of_flight (counted running) flight) fit
  cases h with
  | quiet h => exact completionRingLaw_of_cq law fun m => .inl (h.cq m)
  | start _ h => exact completionRingLaw_of_cq law fun m => .inl (h.cq m)
  | halt h => exact completionRingLaw_of_cq law fun m => .inl (h.cq m)
  | clear _ _ cu =>
    intro m active
    rw [State.cq, cu] at active
    cases active
  | retireQueued r g running from_queue same =>
    have flight := framesOf_pos (counted running).records (Records.queued_used from_queue)
    have count := (counted running).count (s.frame r).ring
    refine completionRingLaw_of_change law (n := (s.sq (s.frame r).ring).cq) (fun m => ?_) (written_state _).1
      (written running (by omega))
    by_cases here : m = (s.sq (s.frame r).ring).cq <;> simp [same.1, here]
  | retireApart r g running apart same =>
    have flight := framesOf_pos (counted running).records (Records.apart_used apart)
    have count := (counted running).count (s.frame r).ring
    refine completionRingLaw_of_change law (n := (s.sq (s.frame r).ring).cq) (fun m => ?_) (written_state _).1
      (written running (by omega))
    by_cases here : m = (s.sq (s.frame r).ring).cq <;> simp [same.1, here]
  | read i n _ _ may =>
    obtain ⟨-, -, -, -, -, free⟩ := mayRead_iff.mp may
    exact completionRingLaw_of_change law (grantRead_cq i n s) rfl (fitsRing_reserved free)
  | release i n => exact completionRingLaw_of_change law (releaseRead_cq i n s) rfl fitsRing_released
  | refuse i n k tag st sub running at_slot =>
    obtain ⟨-, -, flight⟩ := (counted running).flight_of_slot at_slot
    exact completionRingLaw_of_change law (n := (s.sq n).cq) (fun m => by simp) (written_state _).1
      (written running flight)
  | drop n h tag st sub running held =>
    obtain ⟨-, flight⟩ := (counted running).flight_of_held held
    exact completionRingLaw_of_change law (n := (s.sq n).cq) (fun m => by simp) (written_state _).1
      (written running flight)
  | completions n c _ same =>
    exact completionRingLaw_of_change law (fun m => State.cq_setCq ..) same.1 (fitsRing_of_sameLedger same)
  | consume n v _ small within =>
    exact completionRingLaw_of_change law (fun m => State.cq_setCq ..) rfl (fitsRing_consumed small within)
  | createCompletions n c _ _ _ size tail consumer reserved =>
    refine completionRingLaw_of_cq law fun m => ?_
    by_cases here : m = n
    · refine .inr (.inr ?_)
      simp only [here, State.cq_setCq, if_true, fitsRing, tail, consumer, reserved]
      exact ⟨size, size, by simp [ringDistance]⟩
    · exact .inl (by simp [here])
  | removeCompletions n =>
    refine completionRingLaw_of_cq law fun m => ?_
    by_cases here : m = n
    · exact .inr (.inl fun active => by simp [here, CqContext.reset] at active)
    · exact .inl (by simp [here])
  | _ => exact completionRingLaw_of_cq law fun m => .inl (by simp)

/-- The law with the laws it rests on. -/
def LedgerLaws (s : State) : Prop := (s.recordLaw ∧ s.descriptorLaw) ∧ s.completionRingLaw

theorem counted_of_laws {s : State} (law : s.recordLaw ∧ s.descriptorLaw) : s.hp.device = .running → Counted s :=
  ((descriptorLaw_iff s).mp law).2.2

theorem piece_ledgerLaws {s t : State} (h : Piece s t) (law : LedgerLaws s) : LedgerLaws t :=
  ⟨piece_descriptorLaw h law.1, piece_completionRingLaw h (counted_of_laws law.1) law.2⟩

theorem admits_ledgerLaws {s t : State} (h : Admits s t) (law : LedgerLaws s) : LedgerLaws t := by
  refine ⟨admits_descriptorLaw h law.1, completionRingLaw_of_cq law.2 fun m => .inl ?_⟩
  cases h <;> simp

/-- Settles O57: a record is written only into a slot reserved for it, and a slot is reserved only where one is free. -/
theorem completionRingLawKept : Obligations.CompletionRingLawKept := fun _ _ records counts law next =>
  (step_keeps_of_made (L := LedgerLaws) (fun _ _ law => law) (fun _ _ => piece_ledgerLaws)
    (fun _ _ => admits_ledgerLaws) next ⟨⟨records, counts⟩, law⟩).2

end Sys2Proof.Proofs.CompletionLedger

/-! What an operation can do to the links: the law of credit and the law of the serializers are kept, the parts of a frame
go out on links that carry frames, and no link begins to carry frames. Chapter 4's exceptions, an OFFER and a link that
comes up, are taken apart in the next part. -/

namespace Sys2Proof.Proofs.Links

open Sys2Proof Sys2Proof.Machine

/-! ### The two laws, link by link -/

/-- A link on which frames run (R67). -/
def carrying (c : LinkContext) : Prop := c.state = .active ∨ c.state = .draining

/-- A busy serializer stands on a link that carries frames, but for a stopped one whose frame was cut short. -/
def busyOk (c : LinkContext) : Prop := ∀ z, c.serializer = some z → if z.lost then z.stopped = true else carrying c

/-- Available credit is at most the announced credit, and 0 on a link without a partner (R71). -/
def creditOk (c : LinkContext) : Prop := ∀ lane,
  tableGet creditUnlisted c.available lane ≤ tableGet creditUnlisted c.announced lane ∧
    (c.state = .disabled ∨ c.state = .awaitPartner ∨ c.state = .failed →
      tableGet creditUnlisted c.available lane = 0 ∧ tableGet creditUnlisted c.announced lane = 0)

theorem serializerLaw_iff (s : State) : s.serializerLaw ↔ ∀ l, busyOk (s.link l) := Iff.rfl
theorem creditLaw_iff (s : State) : s.creditLaw ↔ ∀ l, creditOk (s.link l) := Iff.rfl

theorem busyOk_of_idle {c : LinkContext} (idle : c.serializer = none) : busyOk c := fun z busy => by
  rw [idle] at busy; cases busy

/-- A serializer that is not marked as cut short stands on a link that carries frames. -/
theorem open_of_busy {c : LinkContext} (ok : busyOk c) {z : Serializer} (busy : c.serializer = some z)
    (kept : z.lost = false) : carrying c := by
  have := ok z busy
  rwa [kept, if_neg (by simp)] at this

/-- A stopped serializer is the only one marked as cut short. -/
theorem unlost_of_unstopped {c : LinkContext} (ok : busyOk c) {z : Serializer} (busy : c.serializer = some z)
    (runs : z.stopped = false) : z.lost = false := by
  by_contra lost
  have := ok z busy
  rw [if_pos (by simpa using lost), runs] at this
  cases this

theorem creditOk_of_none {c : LinkContext} (announced : c.announced = []) (available : c.available = []) : creditOk c := by
  intro lane
  rw [announced, available]
  exact ⟨Nat.le_refl _, fun _ => ⟨rfl, rfl⟩⟩

/-! ### The relations -/

/-- The messages from `s` to `t`, each of which meets a condition. -/
def sends (P : Nat → LinkMessage → Prop) (s t : State) : Prop :=
  ∃ x, t.lu.out = s.lu.out ++ x ∧ ∀ l m, (l, m) ∈ x → P l m

theorem sends_of_same {P : Nat → LinkMessage → Prop} {s t : State} (out : t.lu.out = s.lu.out) : sends P s t :=
  ⟨[], by simp [out], by simp⟩

theorem sends_trans {P Q R : Nat → LinkMessage → Prop} {s t u : State} (h : sends P s t) (g : sends Q t u)
    (left : ∀ l m, P l m → R l m) (right : ∀ l m, Q l m → R l m) : sends R s u := by
  obtain ⟨x, first, hx⟩ := h
  obtain ⟨y, second, hy⟩ := g
  refine ⟨x ++ y, by rw [second, first, List.append_assoc], fun l m mem => ?_⟩
  rcases List.mem_append.mp mem with mem | mem
  · exact left l m (hx l m mem)
  · exact right l m (hy l m mem)

/-- A message that may go out while `s` stands: no OFFER, and a part of a frame only where the link carries frames. -/
def allowed (s : State) (l : Nat) (m : LinkMessage) : Prop := (m.framePart → s.carries l) ∧ ∀ n, m ≠ .offer n

/-- The laws are kept, what is sent is allowed, and no link begins to carry frames. -/
structure Fall (s t : State) : Prop where
  carries : ∀ l, t.carries l → s.carries l
  busy : s.serializerLaw → t.serializerLaw
  credit : s.creditLaw → t.creditLaw
  sent : s.serializerLaw → sends (allowed s) s t

/-- No link's state changes, either. -/
structure Work (s t : State) : Prop extends Fall s t where
  state : ∀ l, (t.link l).state = (s.link l).state

theorem Fall.trans {s t u : State} (h : Fall s t) (g : Fall t u) : Fall s u where
  carries l := h.carries l ∘ g.carries l
  busy := g.busy ∘ h.busy
  credit := g.credit ∘ h.credit
  sent law := sends_trans (h.sent law) (g.sent (h.busy law)) (fun _ _ ok => ok)
    fun l _ ok => ⟨fun part => h.carries l (ok.1 part), ok.2⟩

theorem Work.trans {s t u : State} (h : Work s t) (g : Work t u) : Work s u :=
  ⟨h.toFall.trans g.toFall, fun l => (g.state l).trans (h.state l)⟩

/-- The links and what was sent stand. -/
theorem Work.of_still {s t : State} (links : ∀ l, t.link l = s.link l) (out : t.lu.out = s.lu.out) : Work s t where
  carries l := by simp [State.carries, links]
  busy law := by simpa [serializerLaw_iff, links] using law
  credit law := by simpa [creditLaw_iff, links] using law
  sent _ := sends_of_same out
  state l := by rw [links]

theorem Work.of_lu {s t : State} (lu : t.lu = s.lu) : Work s t :=
  .of_still (fun l => State.link_congr _ _ l (by rw [lu])) (by rw [lu])

theorem Work.refl (s : State) : Work s s := .of_lu rfl
theorem Fall.refl (s : State) : Fall s s := (Work.refl s).toFall
theorem Fall.of_lu {s t : State} (lu : t.lu = s.lu) : Fall s t := (Work.of_lu lu).toFall

/-- One link's context changes, within its laws. -/
theorem Fall.of_link {s t : State} {l : Nat} {c : LinkContext} (links : ∀ k, t.link k = if k = l then c else s.link k)
    (out : t.lu.out = s.lu.out) (carries : carrying c → carrying (s.link l)) (busy : busyOk (s.link l) → busyOk c)
    (credit : creditOk (s.link l) → creditOk c) : Fall s t where
  carries k := by
    show carrying (t.link k) → carrying (s.link k)
    rw [links]
    split
    · next here => exact here ▸ carries
    · exact id
  busy law k := by
    show busyOk (t.link k)
    rw [links]
    split
    · exact busy (law l)
    · exact law k
  credit law k := by
    show creditOk (t.link k)
    rw [links]
    split
    · exact credit (law l)
    · exact law k
  sent _ := sends_of_same out

theorem Work.of_link {s t : State} {l : Nat} {c : LinkContext} (links : ∀ k, t.link k = if k = l then c else s.link k)
    (out : t.lu.out = s.lu.out) (state : c.state = (s.link l).state) (busy : busyOk (s.link l) → busyOk c)
    (credit : creditOk (s.link l) → creditOk c) : Work s t where
  toFall := .of_link links out (by simp [carrying, state]) busy credit
  state k := by
    rw [links]
    split
    · next here => rw [state, here]
    · rfl

/-- A message that is no OFFER, and a part of a frame only where the link carries frames. -/
theorem Work.of_send {s : State} (l : Nat) (m : LinkMessage) (part : s.serializerLaw → m.framePart → s.carries l)
    (offer : ∀ n, m ≠ .offer n) : Work s (s.send l m) where
  carries k := by simp [State.carries]
  busy law := by simpa [serializerLaw_iff] using law
  credit law := by simpa [creditLaw_iff] using law
  sent law := ⟨[(l, m)], rfl, fun k x mem => by
    obtain ⟨rfl, rfl⟩ := by simpa using mem
    exact ⟨part law, offer⟩⟩
  state k := by simp

theorem sendDown_message_fall (l : Nat) (s : State) : Work s (s.send l (.down l)) :=
  .of_send l _ (fun _ part => absurd part (by simp [LinkMessage.framePart])) (by simp)

theorem Fall.ite {p : Prop} [Decidable p] {s u : State} (fall : p → Fall s u) : Fall s (if p then u else s) := by
  split
  case isTrue h => exact fall h
  case isFalse => exact .refl s

theorem Work.ite {p : Prop} [Decidable p] {s u : State} (work : p → Work s u) : Work s (if p then u else s) := by
  split
  case isTrue h => exact work h
  case isFalse => exact .refl s

theorem Fall.foldl {α : Type} {f : State → α → State} (each : ∀ s a, Fall s (f s a)) (as : List α) (s : State) :
    Fall s (as.foldl f s) := by
  induction as generalizing s with
  | nil => exact .refl s
  | cons a as ih => exact (each s a).trans (ih _)

/-! ### The serializer -/

/-- The link's serializer, if busy, has not stopped. -/
def unstopped (s : State) (l : Nat) : Prop := ∀ z, (s.link l).serializer = some z → z.stopped = false

@[simp] theorem setSerializer_link (l : Nat) (z : Option Serializer) (s : State) (k : Nat) :
    (setSerializer l z s).link k = if k = l then { s.link l with serializer := z } else s.link k := State.link_setLink ..

theorem setSerializer_none_work (l : Nat) (s : State) : Work s (setSerializer l none s) :=
  .of_link (setSerializer_link l none s) rfl rfl (fun _ => busyOk_of_idle rfl) fun ok => ok

/-- A serializer keeps its frame. -/
theorem setSerializer_some_work {l : Nat} {s : State} {z w : Serializer} (busy : (s.link l).serializer = some z)
    (lost : w.lost = z.lost) (stopped : w.stopped = z.stopped ∨ w.stopped = true) :
    Work s (setSerializer l (some w) s) := by
  refine .of_link (setSerializer_link l (some w) s) rfl rfl (fun ok x is_w => ?_) fun ok => ok
  obtain rfl : w = x := Option.some.inj is_w
  have before := ok z busy
  rw [← lost] at before
  rcases stopped with same | stopped
  · rw [same]; exact before
  · split
    · exact stopped
    · next kept => rwa [if_neg kept] at before

/-- A serializer begins a frame on a link that carries frames. -/
theorem setSerializer_new_work {l : Nat} {s : State} {w : Serializer} (carries : s.carries l) (kept : w.lost = false) :
    Work s (setSerializer l (some w) s) := by
  refine .of_link (setSerializer_link l (some w) s) rfl rfl (fun ok x is_w => ?_) fun ok => ok
  obtain rfl : w = x := Option.some.inj is_w
  rw [kept, if_neg (by simp)]
  exact carries

theorem stopSerializer_work (l : Nat) (s : State) : Work s (stopSerializer l s) := by
  unfold stopSerializer
  split
  · exact .refl s
  · next z busy => exact setSerializer_some_work busy rfl (.inr rfl)

@[simp] theorem setAvailable_link (l lane n : Nat) (s : State) (k : Nat) : (s.setAvailable l lane n).link k =
    if k = l then { s.link l with available := tableSet creditUnlisted (s.link l).available lane n } else s.link k :=
  State.link_setLink ..

/-- A lane's credit changes, at most to the announced credit. -/
theorem setAvailable_work {l lane n : Nat} {s : State} (within : creditOk (s.link l) → n ≤ s.announced l lane) :
    Work s (s.setAvailable l lane n) := by
  refine .of_link (setAvailable_link l lane n s) rfl rfl (fun ok => ok) fun ok k => ?_
  obtain ⟨below, none⟩ := ok k
  rw [tableGet_set]
  split
  · next here =>
    have bound : n ≤ tableGet creditUnlisted (s.link l).announced k := here ▸ within ok
    exact ⟨bound, fun down => ⟨by have := (none down).2; omega, (none down).2⟩⟩
  · exact ⟨below, none⟩

/-- A frame that was not cut short ends: its marker goes out on a link that carries frames. -/
theorem endMarker_work {l : Nat} {s : State} {z : Serializer} (good : Bool) (busy : (s.link l).serializer = some z)
    (runs : z.stopped = false) : Work s (s.send l (.endMarker good)) :=
  .of_send l _ (fun law _ => open_of_busy (law l) busy (unlost_of_unstopped (law l) busy runs)) (by simp)

theorem takeLinkEnd_work (r : Nat) (cause : Option FrameCause) (s : State) : Work s (takeLinkEnd r cause s) :=
  .of_lu (by simp)

theorem abortFrame_work {l : Nat} (cause : FrameCause) {s : State} (kept : unstopped s l) :
    Work s (abortFrame l cause s) := by
  unfold abortFrame
  split
  · exact .refl s
  · next z busy =>
    have marked := endMarker_work false busy (kept z busy)
    exact ((marked.trans (setAvailable_work fun _ => Nat.min_le_left _ _)).trans (setSerializer_none_work l _)).trans
      (takeLinkEnd_work ..)

theorem abortFrame_idle (l : Nat) (cause : FrameCause) (s : State) :
    ((abortFrame l cause s).link l).serializer = none := by
  unfold abortFrame
  split
  · assumption
  · next z busy =>
    have links : ∀ u : State, (takeLinkEnd z.record (some cause) u).link l = u.link l := fun u =>
      State.link_congr _ _ _ (by simp)
    rw [links, setSerializer_link, if_pos rfl]

theorem goodFrame_work {l : Nat} {s : State} (kept : unstopped s l) : Work s (goodFrame l s) := by
  unfold goodFrame
  split
  · exact .refl s
  · next z busy =>
    exact ((endMarker_work true busy (kept z busy)).trans (setSerializer_none_work l _)).trans (takeLinkEnd_work ..)

theorem goodFrame_idle (l : Nat) (s : State) : ((goodFrame l s).link l).serializer = none := by
  unfold goodFrame
  split
  · assumption
  · next z busy =>
    have links : ∀ u : State, (takeLinkEnd z.record none u).link l = u.link l := fun u =>
      State.link_congr _ _ _ (by simp)
    rw [links, setSerializer_link, if_pos rfl]

/-- A check leaves the links alone. -/
theorem lu_of_answer {β : Type} {s s1 : State} {b : β} {a : β × State} (lu : a.2.lu = s.lu) (answer : a = (b, s1)) :
    s1.lu = s.lu := by
  rwa [answer] at lu

theorem unstopped_of_lu {s t : State} {l : Nat} (lu : t.lu = s.lu) (kept : unstopped s l) : unstopped t l := fun z busy =>
  kept z (by rwa [State.link_congr s t l (by rw [lu])] at busy)

theorem beginCell_work {l : Nat} {s : State} (kept : unstopped s l) : Work s (beginCell l s) := by
  unfold beginCell
  split
  · exact .refl s
  · next z busy =>
    have checked : (checkCell z.nextCell (cellLength (s.frame z.record) z.sent) s).2.lu = s.lu := by simp
    split
    · next s1 answer =>
      have lu := lu_of_answer checked answer
      have still : (s1.link l).serializer = some z := by rw [State.link_congr s s1 l (by rw [lu]), busy]
      exact (Work.of_lu lu).trans (setSerializer_some_work still rfl (.inl rfl))
    · next s1 answer =>
      have lu : (sendReport (.cellData l z.nextCell) s1).lu = s.lu := (by simp : _ = s1.lu).trans (lu_of_answer checked answer)
      exact (Work.of_lu lu).trans (abortFrame_work _ (unstopped_of_lu lu kept))

/-! ### The scheduler -/

theorem eligible_active {s : State} {l f : Nat} (may : eligible s l f = true) : (s.link l).state = .active := by
  simp only [eligible, Bool.and_eq_true, decide_eq_true_eq] at may
  obtain ⟨⟨⟨-, active⟩, -⟩, -⟩ := may
  exact active

theorem grantHead_work {l f r : Nat} {s : State} (active : (s.link l).state = .active) : Work s (grantHead l f r s) := by
  unfold grantHead
  dsimp only
  have credit : Work s (s.setAvailable l (laneOf s l f) (s.available l (laneOf s l f) - (s.frame r).cellCount)) :=
    setAvailable_work fun ok => (Nat.sub_le _ _).trans (ok (laneOf s l f)).1
  refine (((credit.trans (.of_lu (State.setFrame_blocks ..).2.2.1)).trans (setSerializer_new_work (.inl ?_) rfl)).trans
    (.of_send l _ (fun _ _ => .inl ?_) (by simp))).trans (beginCell_work ?_)
  · simpa using active
  · simpa using active
  · intro z busy
    obtain rfl := by simpa using busy
    rfl

theorem award_work {l f : Nat} {s : State} (pointers : Scheduler → Scheduler) (may : eligible s l f = true) :
    Work s (award l f pointers s).2 := by
  unfold award
  split
  · exact .refl s
  · exact (Work.of_lu (t := s.setSched l (pointers (s.sched l))) (by simp)).trans
      (grantHead_work (by simpa using eligible_active may))

theorem applyActivation_work (l : Nat) (s : State) : Work s (applyActivation l s) := .of_lu (by simp)

theorem calendarWrap_work (l : Nat) (s : State) : Work s (calendarWrap l s).2 := by
  unfold calendarWrap
  split
  · refine (applyActivation_work l s).trans ?_
    dsimp only
    split
    · next p f wins => exact award_work _ (Datapath.calendarWinner_eligible wins)
    · exact .refl _
  · dsimp only
    split
    · next p f wins => exact award_work _ (Datapath.calendarWinner_eligible wins)
    · exact .refl _

theorem arbitrate_work (l : Nat) (s : State) : Work s (arbitrate l s).2 := by
  unfold arbitrate
  split
  · next f wins => exact award_work _ (Datapath.expeditedWinner_eligible wins)
  · unfold calendarTier
    dsimp only
    split
    · next p f wins => exact award_work _ (Datapath.calendarWinner_eligible wins)
    · exact calendarWrap_work l s

theorem considerTimes_work (k l : Nat) (s : State) : Work s (considerTimes k l s) := by
  induction k generalizing s with
  | zero => exact .refl s
  | succ k ih =>
    unfold considerTimes
    refine .ite fun _ => ?_
    have read : (readHeads (heads s) s).2.lu = s.lu := by simp
    split
    · exact .ite fun _ => applyActivation_work l s
    · split
      · next s1 answer => exact .of_lu (lu_of_answer read answer)
      · next s1 answer =>
        refine (Work.of_lu (lu_of_answer read answer)).trans (.ite fun _ => ?_)
        have arbitrated := arbitrate_work l s1
        split
        · next s2 made =>
          rw [made] at arbitrated
          split
          · exact arbitrated.trans (ih s2)
          · exact arbitrated
        · next s2 made =>
          rw [made] at arbitrated
          exact arbitrated

theorem consider_work (l : Nat) (s : State) : Work s (consider l s) := considerTimes_work _ l s

/-! ### A link that ceases to carry frames -/

/-- The frame on the link, if any, was cut short: nothing follows it. -/
def silenced (c : LinkContext) : Prop := ∀ z, c.serializer = some z → z.lost = true

theorem busyOk_of_silenced {c d : LinkContext} (silent : silenced c) (same : d.serializer = c.serializer) (ok : busyOk c) :
    busyOk d := fun z busy => by
  rw [same] at busy
  have lost := silent z busy
  have stopped := ok z busy
  rw [if_pos lost] at stopped ⊢
  exact stopped

/-- A link on which nothing more is sent takes any state, its credit with it. -/
theorem clearCredit_fall {l : Nat} {x : LinkState} {s : State} (silent : s.serializerLaw → silenced (s.link l))
    (closes : x ≠ .active ∧ x ≠ .draining) : Fall s (clearCredit l x s) where
  carries k := by
    show carrying _ → carrying (s.link k)
    unfold clearCredit
    rw [State.link_setLink]
    split
    · rintro (active | draining)
      · exact absurd active closes.1
      · exact absurd draining closes.2
    · exact id
  busy law k := by
    show busyOk ((clearCredit l x s).link k)
    unfold clearCredit
    rw [State.link_setLink]
    split
    · exact busyOk_of_silenced (silent law) rfl (law l)
    · exact law k
  credit law k := by
    show creditOk ((clearCredit l x s).link k)
    unfold clearCredit
    rw [State.link_setLink]
    split
    · exact creditOk_of_none rfl rfl
    · exact law k
  sent _ := sends_of_same rfl

theorem silenced_of_idle {c : LinkContext} (idle : c.serializer = none) : silenced c := fun z busy => by
  rw [idle] at busy; cases busy

/-- On a link that carries no frames nothing more is sent. -/
theorem silenced_of_closed {s : State} {l : Nat} (law : s.serializerLaw) (closed : ¬ s.carries l) :
    silenced (s.link l) := fun z busy => by
  by_contra kept
  exact closed (open_of_busy (law l) busy (by simpa using kept))

/-- The long command of a link ends; nothing but the note of it changes on the link. -/
theorem endLinkCommand_link (l : Nat) (st : AdminStatus) (s : State) (k : Nat) :
    (endLinkCommand l st s).link k = if k = l then { s.link l with outstanding := none } else s.link k := by
  unfold endLinkCommand
  have ended : ∀ op (u : State), (endLong op st 0 u).link k = u.link k := fun op u => State.link_congr _ _ k (by simp)
  dsimp only
  split
  · exact State.link_setLink ..
  · rw [ended]; exact State.link_setLink ..
  · rw [ended]; exact State.link_setLink ..

theorem endLinkCommand_out (l : Nat) (st : AdminStatus) (s : State) : (endLinkCommand l st s).lu.out = s.lu.out := by
  unfold endLinkCommand
  dsimp only
  split <;> simp

theorem endLinkCommand_work (l : Nat) (st : AdminStatus) (s : State) : Work s (endLinkCommand l st s) :=
  .of_link (endLinkCommand_link l st s) (endLinkCommand_out l st s) rfl (fun ok => ok) fun ok => ok

theorem endDrain_fall {l : Nat} {s : State} (idle : (s.link l).serializer = none) : Fall s (endDrain l s) :=
  ((sendDown_message_fall l s).toFall.trans (clearCredit_fall (fun _ => silenced_of_idle (by simpa using idle))
    (by simp))).trans (endLinkCommand_work l .ok _).toFall

theorem afterLinkEnd_fall {l : Nat} {s : State} (idle : (s.link l).serializer = none) : Fall s (afterLinkEnd l s) := by
  unfold afterLinkEnd
  split
  · exact endDrain_fall idle
  · exact (consider_work l s).toFall
  all_goals exact .refl s

theorem loseFrame_work (l : Nat) (s : State) : Work s (loseFrame l s) := by
  unfold loseFrame
  split
  · exact .refl s
  · next z busy =>
    split
    · next stopped =>
      refine .of_link (setSerializer_link l _ s) rfl rfl (fun _ x is_lost => ?_) fun ok => ok
      obtain rfl := Option.some.inj is_lost
      exact stopped
    · exact (setSerializer_none_work l s).trans (takeLinkEnd_work ..)

theorem loseFrame_silenced (l : Nat) (s : State) : silenced ((loseFrame l s).link l) := by
  unfold loseFrame
  split
  · next idle => exact silenced_of_idle idle
  · next z busy =>
    split
    · rw [setSerializer_link, if_pos rfl]
      intro x is_lost
      obtain rfl := Option.some.inj is_lost
      rfl
    · have links : ∀ u : State, (takeLinkEnd z.record (some .linkLost) u).link l = u.link l := fun u =>
        State.link_congr _ _ _ (by simp)
      rw [links, setSerializer_link, if_pos rfl]
      exact silenced_of_idle rfl

theorem checkSending_work (l : Nat) (s : State) : Work s (checkSending l s).2 := by
  unfold checkSending
  split
  · exact .refl s
  · next z busy =>
    split
    · exact .refl s
    · have checked : (checkRecord z.record s).2.lu = s.lu := by simp
      split
      · next s1 answer => exact .of_lu (lu_of_answer checked answer)
      · next s1 answer => exact (Work.of_lu (lu_of_answer checked answer)).trans (stopSerializer_work l s1)

theorem Work.of_answer {β : Type} {s s1 : State} {b : β} {a : β × State} (work : Work s a.2) (answer : a = (b, s1)) :
    Work s s1 := by
  rwa [answer] at work

/-- A link's note of its failure, or of its end, changes neither credit nor serializer. -/
theorem note_fall {l : Nat} {s : State} {c : LinkContext} (carries : carrying c → carrying (s.link l))
    (serializer : silenced (s.link l) ∧ c.serializer = (s.link l).serializer)
    (credit : c.announced = [] ∧ c.available = []) : Fall s (s.setLink l c) :=
  .of_link (fun _ => State.link_setLink ..) rfl carries (busyOk_of_silenced serializer.1 serializer.2)
    fun _ => creditOk_of_none credit.1 credit.2

theorem raiseNotice_work (n : Notice) (s : State) : Work s (raiseNotice n s) := .of_lu (by simp)

/-- The end of a failure: the DOWN, the notice, and the end of the drain or a pending activation applied (R80). -/
theorem tellFailure_fall {l : Nat} (cause : LinkCause) (draining : Prop) [Decidable draining] {u : State}
    (silent : silenced (u.link l)) (credit : (u.link l).announced = [] ∧ (u.link l).available = []) : Fall u
    (let v := raiseNotice (.linkFailed l cause) (if cause = .partnerDown then u else u.send l (.down l))
    if draining then endLinkCommand l .ok (v.setLink l { v.link l with state := .disabled })
    else applyAtDeparture l v) := by
  have told : Work u (raiseNotice (.linkFailed l cause) (if cause = .partnerDown then u else u.send l (.down l))) := by
    refine .trans ?_ (raiseNotice_work ..)
    split
    · exact .refl u
    · exact sendDown_message_fall l u
  have links : ∀ k, (raiseNotice (.linkFailed l cause) (if cause = .partnerDown then u else u.send l (.down l))).link k =
      u.link k := fun k => by
    refine (State.link_congr (if cause = .partnerDown then u else u.send l (.down l)) _ k (by simp)).trans ?_
    split <;> simp
  dsimp only
  split
  · refine (told.toFall.trans (note_fall (by simp [carrying]) ?_ ?_)).trans (endLinkCommand_work l .ok _).toFall
    · rw [links]; exact ⟨silent, rfl⟩
    · rw [links]; exact credit
  · exact told.toFall.trans (.of_lu (by simp))

theorem failLink_fall (l : Nat) (cause : LinkCause) (s : State) : Fall s (failLink l cause s) := by
  have silent := loseFrame_silenced l s
  have cleared : (clearCredit l .failed (loseFrame l s)).link l =
      { (loseFrame l s).link l with announced := [], available := [], state := .failed } := by
    rw [clearCredit, State.link_setLink, if_pos rfl]
  have noted : Fall s ((clearCredit l .failed (loseFrame l s)).setLink l
      { (clearCredit l .failed (loseFrame l s)).link l with cause := some cause }) := by
    refine ((loseFrame_work l s).toFall.trans (clearCredit_fall (fun _ => silent) (by simp))).trans (note_fall id ?_ ?_)
    · rw [cleared]; exact ⟨silent, rfl⟩
    · rw [cleared]; exact ⟨rfl, rfl⟩
  refine noted.trans (tellFailure_fall cause ((s.link l).state = .draining) ?_ ?_)
  · rw [State.link_setLink, if_pos rfl, cleared]; exact silent
  · rw [State.link_setLink, if_pos rfl, cleared]; exact ⟨rfl, rfl⟩

theorem failLinkEvent_fall (l : Nat) (cause : LinkCause) (s : State) : Fall s (failLinkEvent l cause s) := by
  unfold failLinkEvent
  split
  · next s1 answer => exact ((checkSending_work l s).of_answer answer).toFall.trans (failLink_fall l cause s1)
  · next s1 answer => exact ((checkSending_work l s).of_answer answer).toFall

theorem protocolError_fall (l : Nat) (s : State) : Fall s (protocolError l s) := .ite fun _ => failLinkEvent_fall l _ s

theorem downInDrain_fall (l : Nat) (s : State) : Fall s (downInDrain l s) := by
  unfold downInDrain
  split
  · next s1 answer =>
    have silent := loseFrame_silenced l s1
    exact ((((checkSending_work l s).of_answer answer).trans (loseFrame_work l s1)).toFall.trans
      (clearCredit_fall (fun _ => silent) (by simp))).trans (endLinkCommand_work l .ok _).toFall
  · next s1 answer => exact ((checkSending_work l s).of_answer answer).toFall

theorem takeCredit_fall (l lane k : Nat) (s : State) : Fall s (takeCredit l lane k s) := by
  unfold takeCredit
  split
  · next within => exact ((setAvailable_work fun _ => within).trans (consider_work l _)).toFall
  · exact failLinkEvent_fall l _ s

/-! ### Cells sent and fill reports -/

/-- What the idle serializer brings, where it is idle. -/
theorem leads_fall {l : Nat} (s : State) :
    Fall s (if (s.link l).serializer = none then afterLinkEnd l s else s) := .ite afterLinkEnd_fall

theorem nextCell_fall {l : Nat} {z : Serializer} {s : State} (busy : (s.link l).serializer = some z)
    (runs : z.stopped = false) : Fall s (nextCell l z s) := by
  unfold nextCell
  dsimp only
  split
  · have moved := setSerializer_some_work busy (w := { z with
      sent := z.sent + 1, nextCell := (s.linkEntry z.nextCell).getD z.nextCell }) rfl (.inl rfl)
    refine (moved.trans (beginCell_work ?_)).toFall.trans (leads_fall _)
    intro x is_moved
    rw [setSerializer_link, if_pos rfl] at is_moved
    obtain rfl := Option.some.inj is_moved
    exact runs
  · exact (setSerializer_some_work busy (by rfl) (.inl (by rfl))).toFall

theorem unstopped_of_busy {l : Nat} {s : State} {z : Serializer} (busy : (s.link l).serializer = some z)
    (runs : z.stopped = false) : unstopped s l := fun x is_busy => by
  rw [busy] at is_busy
  exact Option.some.inj is_busy ▸ runs

theorem endCell_fall {l : Nat} {z : Serializer} {s : State} (busy : (s.link l).serializer = some z)
    (runs : z.stopped = false) : Fall s (endCell l z s) := by
  unfold endCell
  dsimp only
  have cell := Work.of_send (s := s) l (.cell (cellPayload s z.nextCell (cellLength (s.frame z.record) z.sent)))
    (fun law _ => open_of_busy (law l) busy (unlost_of_unstopped (law l) busy runs)) (by simp)
  have lu : ∀ u : State, (checkRecord z.record u).2.lu = u.lu := fun u => by simp
  split
  · next s1 answer => exact ((cell.trans (.of_lu (lu_of_answer (lu _) answer))).trans (stopSerializer_work l s1)).toFall
  · next s1 answer =>
    have first := lu_of_answer (lu _) answer
    have linked : (if z.sent + 1 = z.cellCount then (true, s1) else checkLink z.nextCell s1).2.lu = s1.lu := by
      split <;> simp
    split
    · next s2 answer =>
      have second := (lu_of_answer linked answer).trans first
      exact ((cell.trans (.of_lu second)).trans (stopSerializer_work l s2)).toFall
    · next s2 answer =>
      have second := (lu_of_answer linked answer).trans first
      have counted : (countSent z.record s2).lu = _ := (by simp : _ = s2.lu).trans second
      have still : ((countSent z.record s2).link l).serializer = some z := by
        rw [State.link_congr (s.send l _) _ l (by rw [counted])]
        simpa using busy
      refine (cell.trans (.of_lu counted)).toFall.trans ?_
      split
      · have counts := setSerializer_some_work still (w := { z with sent := z.sent + 1 }) rfl (.inl rfl)
        refine (counts.trans (goodFrame_work ?_)).toFall.trans (afterLinkEnd_fall (goodFrame_idle l _))
        exact unstopped_of_busy (z := { z with sent := z.sent + 1 }) (by simp) runs
      · exact nextCell_fall still runs

theorem takeFillReport_fall (l r k : Nat) (s : State) : Fall s (takeFillReport l r k s) := by
  unfold takeFillReport
  split
  · exact .refl s
  · next z busy =>
    refine .ite fun guard => ?_
    have counts := setSerializer_some_work busy (w := { z with filled := k }) rfl (.inl rfl)
    dsimp only
    split
    · refine (counts.trans (beginCell_work ?_)).toFall
      exact unstopped_of_busy (z := { z with filled := k }) (by simp) guard.2
    · exact counts.toFall

/-! ### Device states -/

theorem quietLink_fall (l : Nat) (s : State) : Fall s (quietLink l s) :=
  .of_link (c := { s.link l with serializer := none, offerTimer := none, linkUpTimer := none })
    (fun _ => State.link_setLink ..) rfl id (fun _ => busyOk_of_idle rfl) fun ok => ok

theorem markAbort_work (l : Nat) (s : State) : Work s (markAbort l s) := by
  rcases markAbort_cases l s with same | ⟨carries, -, marked⟩
  · rw [same]; exact .refl s
  · rw [marked]; exact .of_send l _ (fun _ _ => carries) (by simp)

theorem sendDown_work (l : Nat) (s : State) : Work s (sendDown l s) := by
  unfold sendDown
  split
  · exact .refl s
  · exact sendDown_message_fall l s

theorem haltLink_fall (l : Nat) (s : State) : Fall s (haltLink l s) :=
  (markAbort_work l s).toFall.trans (quietLink_fall l _)

theorem selfResetLink_fall (l : Nat) (s : State) : Fall s (selfResetLink l s) :=
  (haltLink_fall l s).trans (sendDown_work l _).toFall

theorem resetLink_fall (silent : Bool) (l : Nat) (s : State) : Fall s (resetLink silent l s) := by
  unfold resetLink
  split
  · exact quietLink_fall l s
  · exact (quietLink_fall l s).trans (sendDown_work l _).toFall

theorem haltLink_idle (l : Nat) (s : State) : ((haltLink l s).link l).serializer = none := by
  rw [haltLink, quietLink, State.link_setLink, if_pos rfl]

theorem sendDown_link (l : Nat) (s : State) (k : Nat) : (sendDown l s).link k = s.link k := by
  unfold sendDown
  split <;> simp

theorem takeDownLink_fall (l : Nat) (s : State) : Fall s (takeDownLink l s) := by
  have before := (haltLink_fall l s).trans (sendDown_work l _).toFall
  unfold takeDownLink
  dsimp only
  split
  · exact before
  · refine before.trans (note_fall (by simp [carrying]) ⟨?_, rfl⟩ ⟨rfl, rfl⟩)
    rw [sendDown_link]
    exact silenced_of_idle (haltLink_idle l s)

theorem forLinks_fall {f : Nat → State → State} (each : ∀ l s, Fall s (f l s)) (s : State) : Fall s (forLinks f s) :=
  Fall.foldl (fun s l => each l s) _ s

theorem dropReports_work (s : State) : Work s (dropReports s) := .of_still (fun _ => rfl) rfl

/-- The first part of every entry into a state that is neither RUNNING nor STOPPED. -/
theorem entry_work (s : State) (f : HpBlock → HpBlock) : Work s (dropReports (stopHoldoffs (s.onHp f))) :=
  .trans (.of_lu (by simp)) (dropReports_work _)

theorem enterFailed_fall (down : Bool) (s : State) : Fall s (enterFailed down s) := by
  have entered := (entry_work s fun b => { b with device := .failed }).toFall
  refine entered.trans ?_
  unfold enterFailed
  dsimp only
  cases down <;> simp only [Bool.false_eq_true, if_true, if_false]
  · exact (forLinks_fall haltLink_fall _).trans (raiseNotice_work ..).toFall
  · exact ((forLinks_fall takeDownLink_fall _).trans (raiseNotice_work ..).toFall).trans
      (forLinks_fall (fun l u => .of_lu (by simp)) _)

/-- Every link DISABLED, what was sent kept. -/
theorem Fall.of_reset {s t : State} (lu : t.lu = { LuBlock.reset with out := s.lu.out }) : Fall s t := by
  have link : ∀ l, t.link l = LinkContext.reset := fun l => by rw [State.link, lu]; rfl
  exact
    { carries := fun l => by simp [State.carries, link, LinkContext.reset]
      busy := fun _ l => by
        show busyOk (t.link l)
        rw [link]; exact busyOk_of_idle rfl
      credit := fun _ l => by
        show creditOk (t.link l)
        rw [link]; exact creditOk_of_none rfl rfl
      sent := fun _ => sends_of_same (by rw [lu]) }

theorem completeSelfReset_fall (s : State) : Fall s (completeSelfReset s) := by
  have cleared : Fall s (resetDatapath s) := .of_reset rfl
  refine cleared.trans (.of_lu ?_)
  unfold completeSelfReset escalate returnToRunning
  dsimp only
  split <;> simp

theorem completeReset_fall (s : State) : Fall s (completeReset s) := by
  unfold completeReset
  refine .ite fun _ => ?_
  split
  · exact completeSelfReset_fall s
  · exact .of_reset rfl
  all_goals exact .refl s

theorem enterSelfResetting_fall (s : State) : Fall s (enterSelfResetting s) :=
  ((entry_work s fun b => { b with device := .selfResetting }).toFall.trans
    (forLinks_fall selfResetLink_fall _)).trans (completeReset_fall _)

theorem enterResetting_fall (s : State) : Fall s (enterResetting s) :=
  (entry_work s fun b => { b with device := .resetting, run := false }).toFall.trans (forLinks_fall (resetLink_fall _) _)

theorem startFunctionReset_fall (s : State) : Fall s (startFunctionReset s) := by
  unfold startFunctionReset
  split
  · exact .refl s
  · exact (enterResetting_fall s).trans (completeReset_fall _)

theorem startHostLinkReset_fall (s : State) : Fall s (startHostLinkReset s) := by
  unfold startHostLinkReset
  split
  · exact .refl s
  · exact ((Fall.of_lu (by simp)).trans (enterResetting_fall (cutOffReads s))).trans (completeReset_fall _)

theorem discardSlotRead_fall (i : Nat) (s : State) : Fall s (discardSlotRead i s) :=
  (Fall.of_lu (t := s.setSlot i .idle) (by simp)).trans (completeReset_fall _)

theorem discardAdminRead_fall (s : State) : Fall s (discardAdminRead s) :=
  .trans (.of_lu (by simp)) (completeReset_fall _)

theorem contain_fall (cause : FatalCause) (s : State) : Fall s (contain cause s) := by
  refine (Fall.of_lu (t := s.onEc fun b => { b with fatalCause := some cause }) (by simp)).trans ?_
  unfold contain
  dsimp only
  split
  · exact enterFailed_fall ..
  · exact enterFailed_fall ..
  · exact enterSelfResetting_fall ..

theorem startDevice_work (s : State) : Work s (startDevice s) := by
  unfold startDevice
  refine .ite fun _ => ?_
  split
  · exact .of_lu (by simp)
  · exact .of_lu (by simp)

theorem storeMode_work (w : Word32) (s : State) : Work s (storeMode w s) := by
  have stored : Work s (match controlMode w with | none => s | some m => s.onHp fun b => { b with mode := m }) := by
    split
    · exact .refl s
    · exact .of_lu (by simp)
  unfold storeMode
  split
  case h_4 => exact .refl s
  case h_5 => exact .refl s
  all_goals exact stored

theorem writeControl_fall (w : Word32) (s : State) : Fall s (writeControl w s) := by
  unfold writeControl
  split
  · exact .refl s
  · split
    · exact startFunctionReset_fall s
    · split
      · exact ((storeMode_work w s).trans (startDevice_work _)).toFall
      · exact (storeMode_work w s).toFall

theorem writeWindow_fall (o w : Nat) (v : Word32) (s : State) : Fall s (writeWindow o w v s) := by
  have port : ∀ n, Fall s (writePort n v s) := fun n => by
    unfold writePort
    refine .of_lu ?_
    split_ifs <;> simp
  have register : ∀ r, Fall s (writeSystemRegister r v s) := fun r => by
    unfold writeSystemRegister
    exact .ite fun _ => .of_lu (by simp)
  unfold writeWindow
  split
  · exact .refl s
  · split
    · exact writeControl_fall v s
    · split
      · exact register _
      · split
        · exact port _
        · exact .refl s

/-! ### The fetch path -/

theorem startAdmitted_work (i n r : Nat) (d : Descriptor) (s : State) : Work s (startAdmitted i n r d s) := by
  have begun : Work s (beginPayload i n r d.used s) := .of_lu (by simp)
  unfold startAdmitted
  dsimp only
  split
  · exact begun.trans (consider_work ..)
  · exact begun

theorem takeDescriptor_work (i n k : Nat) (d : Descriptor) (s : State) : Work s (takeDescriptor i n k d s) := by
  have requested : (requestAdmission n d (cellNeed d.length) s).2.lu = s.lu := by simp
  unfold takeDescriptor
  split
  · exact .of_lu (by simp)
  · split
    · next s1 answer => exact .of_lu (lu_of_answer requested answer)
    · next s1 answer => exact (Work.of_lu (lu_of_answer requested answer)).trans (.of_lu (by simp))
    · next s1 answer =>
      refine (Work.of_lu (lu_of_answer requested answer)).trans ?_
      split
      · exact .of_lu (by simp)
      · exact .of_lu (by simp)
    · next r s1 answer =>
      have taken : Work s1 (takeHead n s1) := .of_lu (by simp)
      exact ((Work.of_lu (lu_of_answer requested answer)).trans taken).trans (startAdmitted_work ..)

theorem returnDescriptor_work (i n k : Nat) (x : BitVec 512) (s : State) : Work s (returnDescriptor i n k x s) := by
  unfold returnDescriptor
  split
  case h_1 => exact takeDescriptor_work ..
  all_goals exact .of_lu (by simp)

theorem failSlotRead_fall (i : Nat) (s : State) : Fall s (failSlotRead i s) := by
  refine (Fall.of_lu (t := freeRead i s) (by simp)).trans ?_
  unfold failSlotRead
  dsimp only
  split
  · split
    · exact .of_lu (by simp)
    · exact .of_lu (by simp)
    · exact .refl _
  · exact discardSlotRead_fall i _

theorem failAdminRead_fall (s : State) : Fall s (failAdminRead s) := by
  refine (Fall.of_lu (t := freeRead 8 s) (by simp)).trans ?_
  unfold failAdminRead
  dsimp only [adminReadEntry]
  split
  · split
    · exact .of_lu (by simp)
    · exact .refl _
  · exact discardAdminRead_fall _

theorem reportFill_fall (r : Nat) (s : State) : Fall s (reportFill r s) := by
  unfold reportFill
  dsimp only
  have told : Fall s (if (s.frame r).state = .sending then
      takeFillReport (s.flow (s.frame r).flow).link r (s.frame r).filled s else s) := .ite fun _ => takeFillReport_fall ..
  exact told.trans (leads_fall _)

theorem returnPayload_fall (i n r : Nat) (gs : List Segment) (c o : Nat) (xs : List Byte) (s : State) :
    Fall s (returnPayload i n r gs c o xs s) := by
  have presented : (presentBytes r xs s).2.lu = s.lu := by simp
  have reported : ∀ {p : Prop} [Decidable p] {u : State}, Fall s u → Fall s (if p then reportFill r u else u) :=
    fun before => before.trans (.ite fun _ => reportFill_fall r _)
  unfold returnPayload
  dsimp only
  split
  · next s1 answer =>
    exact reported ((Fall.of_lu (lu_of_answer presented answer)).trans (.of_lu (by simp)))
  · next s1 answer => exact reported (.of_lu (lu_of_answer presented answer))

theorem applyFetchEnd_work (r : Nat) (ok : Bool) (s : State) : Work s (applyFetchEnd r ok s) := by
  have retires : ∀ g, Work s (retire r (s.setFrame r g)) := fun g => .of_lu (by simp)
  have filling : Work s (failFilling r s) := by
    unfold failFilling
    dsimp only
    split
    · exact .trans (.of_lu (by simp)) (consider_work ..)
    · exact .of_lu (by simp)
  unfold applyFetchEnd
  dsimp only
  split
  case h_1 =>
    split
    · exact .of_lu (by simp)
    · exact filling
  case h_2 => exact .of_lu (by simp)
  case h_3 =>
    split
    · exact .of_lu (by simp)
    · exact .of_still (fun _ => rfl) rfl
  case h_4 => exact retires _
  case h_5 => exact retires _
  case h_6 => exact .refl s

theorem fetchEndEvent_work (r : Nat) (s : State) : Work s (fetchEndEvent r s) := by
  unfold fetchEndEvent
  split
  case h_1 => exact .refl s
  case h_2 ok rest _ =>
    have taken : Work s (s.onBm fun b => { b with fetchEnds := rest }) := .of_lu (by simp)
    refine taken.trans (.ite fun _ => ?_)
    have checked : ∀ u : State, (checkRecord r u).2.lu = u.lu := fun u => by simp
    split
    case h_1 s2 answer => exact (Work.of_lu (lu_of_answer (checked _) answer)).trans (applyFetchEnd_work r ok s2)
    case h_2 s2 answer => exact .of_lu (lu_of_answer (checked _) answer)

theorem retryHeld_work (i n : Nat) (h : HeldCopy) (s : State) : Work s (retryHeld i n h s) := by
  have requested : (requestAdmission n h.descriptor h.need s).2.lu = s.lu := by simp
  unfold retryHeld
  dsimp only
  split
  · next s1 answer => exact (Work.of_lu (lu_of_answer requested answer)).trans (.of_lu (by simp))
  · next s1 answer => exact (Work.of_lu (lu_of_answer requested answer)).trans (.of_lu (by simp))
  · next s1 answer =>
    refine (Work.of_lu (lu_of_answer requested answer)).trans ?_
    split
    · exact .of_lu (by simp)
    · split
      · exact .of_lu (by simp)
      · exact .of_lu (by simp)
  · next r s1 answer =>
    have cleared : Work s1 (clearHeld n s1) := .of_lu (by simp)
    exact ((Work.of_lu (lu_of_answer requested answer)).trans cleared).trans (startAdmitted_work ..)

/-! ### The admin commands -/

theorem shortCommand_work {tag : BitVec 16} {kind : Nat} {status : AdminStatus} {effect : State → State} {s : State}
    (lu : (effect s).lu = s.lu) : Work s (shortCommand tag kind status effect s) := by
  unfold shortCommand
  refine .of_lu ?_
  split <;> simp [lu]

theorem flushFlow_work (tag : BitVec 16) (f : Nat) (s : State) : Work s (flushFlow tag f s) := by
  have held : ∀ (ns : List Nat) (u : State), (ns.foldl flushHeld u).lu = u.lu := fun ns u => by simp
  have records : ∀ (rs : List Nat) (a : Option Nat) (u : State), (rs.foldl (flushRecord f) (a, u)).2.lu = u.lu := fun rs a u => by simp
  have told : ∀ (p : Prop) [Decidable p] (u : State) (l : Nat), Work u (if p then u else consider l u) := by
    intro p _ u l
    split
    · exact .refl u
    · exact consider_work l u
  have completed : ∀ u, Work u (if (u.flow f).held = 0 then
      adminComplete tag 0x13 .ok ((u.flow f).flushed % 2 ^ 16) (u.setFlow f { u.flow f with state := .disabled })
      else appendOutstanding (.flushFlow f) tag u) := fun u => .of_lu (by split <;> simp)
  have ended : ∀ (o : Option Nat) (u : State), Work u (match o with | none => u | some n => endDeletion n u) := fun o u =>
    .of_lu (by cases o <;> simp)
  have begun : ∀ u, Work u (beginFlush tag f u) := fun u => by
    refine (Work.of_lu (t := u.setFlow f { u.flow f with state := .flushing, flushed := 0 }) (by simp)).trans
      ((Work.of_lu (held _ _)).trans ((Work.of_lu (records _ none _)).trans ((told _ _ _).trans
        ((completed _).trans (ended _ _)))))
  have checked : ∀ rs (u : State), (checkRecords rs u).2.lu = u.lu := fun rs u => by simp
  have walked : Work s (match checkRecords (s.flow f).queue s with
      | (true, s1) => beginFlush tag f s1
      | (false, s1) => adminComplete tag 0x13 .aborted 0 s1) := by
    split
    · next s1 answer => exact (Work.of_lu (lu_of_answer (checked _ _) answer)).trans (begun s1)
    · next s1 answer => exact (Work.of_lu (lu_of_answer (checked _ _) answer)).trans (.of_lu (by simp))
  unfold flushFlow
  split
  · exact .of_lu (by simp)
  · split
    case h_1 => exact .of_lu (by simp)
    case h_2 => exact .of_lu (by simp)
    all_goals exact walked

theorem activateCalendar_work (tag : BitVec 16) (l : Nat) (s : State) : Work s (activateCalendar tag l s) := by
  unfold activateCalendar
  split
  · exact .of_lu (by simp)
  · split
    · exact .of_lu (by simp)
    · have pending : Work s (appendOutstanding (.activateCalendar l) tag
          (s.setSched l { s.sched l with activation := true })) := .of_lu (by simp)
      refine pending.trans ?_
      unfold beginActivation
      dsimp only
      split
      · exact consider_work ..
      · exact .of_lu (by simp)

theorem adminComplete_work (tag : BitVec 16) (k : Nat) (st : AdminStatus) (x : Nat) (s : State) :
    Work s (adminComplete tag k st x s) := .of_lu (by simp)

theorem disableLink_fall (tag : BitVec 16) (l : Nat) (s : State) : Fall s (disableLink tag l s) := by
  have completed : ∀ st u, Fall u (adminComplete tag 0x21 st 0 u) := fun st u => (adminComplete_work ..).toFall
  have departs : ∀ u, Fall u (applyAtDeparture l u) := fun u => .of_lu (by simp)
  unfold disableLink
  split
  · exact completed _ s
  · split
    · exact completed _ s
    · next waits =>
      have timers : Fall s (s.setLink l { s.link l with offerTimer := none, linkUpTimer := none }) :=
        .of_link (fun _ => State.link_setLink ..) rfl (fun opens => opens) (fun ok => ok) fun ok => ok
      unfold disableAwaiting
      refine (((timers.trans (sendDown_message_fall l _).toFall).trans (clearCredit_fall (fun law => ?_) (by simp))).trans
        (endLinkCommand_work l .aborted _).toFall).trans (completed _ _)
      exact silenced_of_closed law (by simp [State.carries, waits])
    · next active =>
      unfold disableActive
      split
      · next idle =>
        exact (((sendDown_message_fall l s).toFall.trans (clearCredit_fall (fun _ => silenced_of_idle (by simpa using idle))
          (by simp))).trans (completed _ _)).trans (departs _)
      · have drains : Fall s (s.setLink l { s.link l with state := .draining, outstanding := some .disable }) :=
          .of_link (fun _ => State.link_setLink ..) rfl (fun _ => .inl active)
            (fun ok z busy => (ok z busy : if z.lost then _ else carrying (s.link l)) |> fun before => by
              split
              · next lost => rwa [if_pos lost] at before
              · exact .inr rfl)
            fun ok lane => ⟨(ok lane).1, by simp⟩
        exact (drains.trans (.of_lu (by simp))).trans (departs _)
    · exact completed _ s
    · next failed =>
      refine (clearCredit_fall (fun law => ?_) (by simp)).trans (completed _ _)
      exact silenced_of_closed law (by simp [State.carries, failed])

theorem linkUpExpiry_fall (l : Nat) (s : State) (waits : (s.link l).state = .awaitPartner) :
    Fall s (endLinkCommand l .timeout (clearCredit l .disabled
      ((s.setLink l { s.link l with offerTimer := none, linkUpTimer := none }).send l (.down l)))) := by
  have timers : Fall s (s.setLink l { s.link l with offerTimer := none, linkUpTimer := none }) :=
    .of_link (fun _ => State.link_setLink ..) rfl (fun opens => opens) (fun ok => ok) fun ok => ok
  refine ((timers.trans (sendDown_message_fall l _).toFall).trans (clearCredit_fall (fun law => ?_) (by simp))).trans
    (endLinkCommand_work l .timeout _).toFall
  exact silenced_of_closed law (by simp [State.carries, waits])

end Sys2Proof.Proofs.Links

/-! The laws of credit and of the serializers over a whole step (R69, R71), with the four commands under which a link
begins to carry frames, sends an OFFER or is powered on. -/

namespace Sys2Proof.Proofs.LinkSteps

open Sys2Proof Sys2Proof.Machine Host Sys2Proof.Proofs.Links Sys2Proof.Proofs.Steps

/-- A message that a step may send: a part of a frame on a link that it finds carrying frames or leaves ACTIVE, an OFFER
on a link that it leaves in AWAIT_PARTNER. -/
def placed (s t : State) (l : Nat) (m : LinkMessage) : Prop :=
  (m.framePart → s.carries l ∨ (t.link l).state = .active) ∧ ∀ n, m = .offer n → (t.link l).state = .awaitPartner

/-- What a whole step does to the links. -/
structure Runs (s t : State) : Prop where
  busy : s.serializerLaw → t.serializerLaw
  credit : s.creditLaw → t.creditLaw
  sent : s.serializerLaw → t.lu.out = [] ∨ sends (placed s t) s t

theorem runs_of_fall {s t : State} (h : Fall s t) : Runs s t where
  busy := h.busy
  credit := h.credit
  sent law := by
    obtain ⟨x, out, each⟩ := h.sent law
    refine .inr ⟨x, out, fun l m mem => ?_⟩
    obtain ⟨part, offer⟩ := each l m mem
    exact ⟨fun is_part => .inl (part is_part), fun n is_offer => absurd is_offer (offer n)⟩

theorem runs_of_work {s t : State} (h : Work s t) : Runs s t := runs_of_fall h.toFall

theorem runs_of_lu {s t : State} (lu : t.lu = s.lu) : Runs s t := runs_of_fall (.of_lu lu)

theorem link_of_lu {s t : State} (lu : t.lu = s.lu) (l : Nat) : t.link l = s.link l :=
  State.link_congr _ _ l (by rw [lu])

theorem serializerLaw_of_lu {s t : State} (lu : t.lu = s.lu) (law : s.serializerLaw) : t.serializerLaw :=
  (Fall.of_lu lu).busy law

theorem Runs.before {s u t : State} (lu : u.lu = s.lu) (h : Runs u t) : Runs s t where
  busy := h.busy ∘ serializerLaw_of_lu lu
  credit := h.credit ∘ (Fall.of_lu lu).credit
  sent law := by
    have sent := h.sent (serializerLaw_of_lu lu law)
    simpa only [sends, placed, State.carries, lu, link_of_lu lu] using sent

theorem Runs.after {s u t : State} (h : Runs s u) (lu : t.lu = u.lu) : Runs s t where
  busy := serializerLaw_of_lu lu ∘ h.busy
  credit := (Fall.of_lu lu).credit ∘ h.credit
  sent law := by simpa only [sends, placed, lu, link_of_lu lu] using h.sent law

theorem Runs.ite {p : Prop} [Decidable p] {s u : State} (runs : p → Runs s u) : Runs s (if p then u else s) := by
  split
  case isTrue h => exact runs h
  case isFalse => exact runs_of_lu rfl

theorem takeCommand_runs {effect : State → State} (each : ∀ u, Runs u (effect u)) (s : State) :
    Runs s (takeCommand effect s) := by
  have taken : ∀ u v : State, v.lu = u.lu → Runs u (startCommandRead (effect v)) := fun u v lu =>
    ((each v).before lu).after (by simp)
  unfold takeCommand
  refine .ite fun _ => .before (u := freeRead adminReadEntry s) (by simp) ?_
  dsimp only
  split
  · refine .ite fun _ => ?_
    exact taken _ _ (by simp)
  · exact runs_of_fall (discardAdminRead_fall _)

/-! ### A link comes up (R73) -/

/-- A link in AWAIT_PARTNER becomes ACTIVE; its serializer, if busy, is a stopped one whose frame was cut short. -/
theorem bringUp_runs (l a b c d : Nat) {s : State} (waits : (s.link l).state = .awaitPartner) :
    Runs s (bringUp l a b c d s) := by
  have up : ∀ k, (s.setLink l { s.link l with
      state := .active, announced := fourLanes a b c d, available := fourLanes a b c d, offerTimer := none,
      linkUpTimer := none }).link k = if k = l then { s.link l with
      state := .active, announced := fourLanes a b c d, available := fourLanes a b c d, offerTimer := none,
      linkUpTimer := none } else s.link k := fun k => State.link_setLink ..
  have worked : Work _ (bringUp l a b c d s) := (endLinkCommand_work l .ok _).trans (consider_work l _)
  have law_up : s.serializerLaw → State.serializerLaw _ := fun law k => by
    show busyOk _
    rw [up]
    split
    · exact busyOk_of_silenced (silenced_of_closed law (by simp [State.carries, waits])) rfl (law l)
    · exact law k
  refine ⟨fun law => worked.busy (law_up law), fun law => worked.credit fun k => ?_, fun law => .inr ?_⟩
  · show creditOk _
    rw [up]
    split
    · exact fun lane => ⟨Nat.le_refl _, by simp⟩
    · exact law k
  · obtain ⟨x, out, each⟩ := worked.sent (law_up law)
    refine ⟨x, out, fun k m mem => ?_⟩
    obtain ⟨part, offer⟩ := each k m mem
    refine ⟨fun is_part => ?_, fun n is_offer => absurd is_offer (offer n)⟩
    have carries := part is_part
    by_cases here : k = l
    · right
      rw [worked.state, up, if_pos here]
    · left
      simpa [State.carries, up, here] using carries

/-! ### An OFFER (R75, R76) -/

theorem runs_of_offer {s t : State} {l : Nat} {c : LinkContext} (links : ∀ k, t.link k = if k = l then c else s.link k)
    (out : t.lu.out = s.lu.out ++ [(l, .offer l)]) (awaits : c.state = .awaitPartner)
    (busy : s.serializerLaw → busyOk c) (credit : creditOk (s.link l) → creditOk c) : Runs s t where
  busy law k := by
    show busyOk _
    rw [links]
    split
    · exact busy law
    · exact law k
  credit law k := by
    show creditOk _
    rw [links]
    split
    · exact credit (law l)
    · exact law k
  sent law := .inr ⟨_, out, fun k m mem => by
    obtain ⟨rfl, rfl⟩ := by simpa using mem
    refine ⟨fun is_part => absurd is_part (by simp [LinkMessage.framePart]), fun n _ => ?_⟩
    rw [links, if_pos rfl, awaits]⟩

theorem enableLink_runs (tag : BitVec 16) (l timeout : Nat) (s : State) : Runs s (enableLink tag l timeout s) := by
  have begun : ¬ s.carries l → Runs s (beginEnable tag l timeout s) := fun closed => by
    refine runs_of_offer (l := l) (c := { s.link l with
      state := .awaitPartner, cause := none, announced := [], available := [], offerTimer := some offerMs,
      linkUpTimer := some timeout, outstanding := some .enable }) (fun k => ?_) ?_ rfl (fun law => ?_) fun _ => ?_
    · have sent : ∀ u : State, (appendOutstanding (.enableLink l) tag (u.send l (.offer l))).link k = u.link k := fun u => by
        simp [State.link]
      exact (sent _).trans (State.link_setLink ..)
    · simp [beginEnable]
    · exact busyOk_of_silenced (silenced_of_closed law closed) rfl (law l)
    · exact creditOk_of_none rfl rfl
  unfold enableLink
  split
  · exact runs_of_lu (by simp)
  · split
    · next disabled => exact begun (by simp [State.carries, disabled])
    · next failed => exact begun (by simp [State.carries, failed])
    all_goals exact runs_of_lu (by simp)

theorem offerTimer_runs (l : Nat) {s : State} (waits : (s.link l).state = .awaitPartner) :
    Runs s ((s.setLink l { s.link l with offerTimer := some offerMs }).send l (.offer l)) :=
  runs_of_offer (l := l) (c := { s.link l with offerTimer := some offerMs }) (fun k => by simp) (by simp) waits
    (fun law => law l) fun ok => ok

/-! ### The sixty commands -/

theorem runs_of_next {s t u : State} {o : Outcome State Fault Refusal} (runs : Runs s u) (same : o = .next u)
    (next : o = .next t) : Runs s t := by
  obtain rfl : u = t := by simpa [same] using next
  exact runs

theorem slotRead_fall (i : Nat) (data : BitVec 512) (s : State) : Fall s
    (match s.slot i with
    | .descRead n k =>
      if awaitsResponse s i then
        if s.hp.device = .running then returnDescriptor i n k data (freeRead i s) else discardSlotRead i (freeRead i s)
      else s
    | .idle | .payload .. => s) := by
  split
  case h_1 n k slot =>
    refine .ite fun _ => .trans (.of_lu (t := freeRead i s) (by simp)) ?_
    split
    · exact (returnDescriptor_work ..).toFall
    · exact discardSlotRead_fall ..
  all_goals exact .refl s

theorem payloadRead_fall (i : Nat) (data : List Byte) (s : State) : Fall s
    (match s.slot i, s.read i with
    | .payload n r gs c o, some e =>
      if e.cutOff = false ∧ data.length = e.length then
        if s.hp.device = .running then returnPayload i n r gs c o data (freeRead i s)
        else discardSlotRead i (freeRead i s)
      else s
    | _, _ => s) := by
  split
  case h_1 n r gs c o e slot _ =>
    refine .ite fun _ => .trans (.of_lu (t := freeRead i s) (by simp)) ?_
    split
    · exact returnPayload_fall ..
    · exact discardSlotRead_fall ..
  case h_2 => exact .refl s

theorem retry_work (s : State) : Work s
    (if s.hp.device = .running then
      match idleSlot s, retryClaim s with
      | some i, some e =>
        match (s.sq e.ring).held with
        | some h => retryHeld i e.ring h s
        | none => s
      | _, _ => s
    else s) := by
  refine .ite fun _ => ?_
  split
  case h_1 i e _ _ =>
    split
    case h_1 h _ => exact retryHeld_work i e.ring h s
    case h_2 => exact .refl s
  case h_2 => exact .refl s

theorem fetchSlotGrant_work (s : State) : Work s
    (if s.hp.device = .running ∧ retryClaim s = none then
      match idleSlot s, readClaim s with
      | some i, some n => grantRead i n s
      | _, _ => s
    else s) := by
  refine .ite fun _ => ?_
  split
  case h_1 => exact .of_lu (by simp)
  case h_2 => exact .refl s

/-- A check that passes leaves the links alone. -/
theorem checkSending_lu {l : Nat} {s s1 : State} (passed : checkSending l s = (true, s1)) : s1.lu = s.lu := by
  unfold checkSending at passed
  split at passed
  · cases passed; rfl
  · next z _ =>
    split at passed
    · cases passed; rfl
    · have checked : (checkRecord z.record s).2.lu = s.lu := by simp
      split at passed
      · next s2 answer => cases passed; exact lu_of_answer checked answer
      · cases passed

theorem abortEvent_fall {l : Nat} (cause : FrameCause) {s : State} (runs : unstopped s l) :
    Fall s (abortEvent l cause s) := by
  unfold abortEvent
  split
  case h_1 s1 answer =>
    have checked := (checkSending_work l s).of_answer answer
    refine (checked.trans (abortFrame_work cause ?_)).toFall.trans (afterLinkEnd_fall (abortFrame_idle l cause s1))
    exact unstopped_of_lu (checkSending_lu answer) runs
  case h_2 s1 answer => exact ((checkSending_work l s).of_answer answer).toFall

theorem cellSent_fall (l : Nat) (s : State) : Fall s
    (match (s.link l).serializer with
    | none => s
    | some z => if s.hp.device = .running ∧ z.state = .transmitting ∧ z.stopped = false then endCell l z s else s) := by
  split
  case h_1 => exact .refl s
  case h_2 z busy => exact .ite fun guard => endCell_fall busy guard.2.2

theorem abortOrder_fall (l r : Nat) (s : State) : Fall s
    (if s.lu.aborts.contains (l, r) then
      let s1 := s.onLu fun b => { b with aborts := b.aborts.erase (l, r) }
      match (s1.link l).serializer with
      | none => s1
      | some z =>
        if s1.hp.device = .running ∧ z.record = r ∧ z.stopped = false then abortEvent l .fetchAborted s1 else s1
    else s) := by
  refine .ite fun _ => ?_
  have taken : Work s (s.onLu fun b => { b with aborts := b.aborts.erase (l, r) }) := .of_still (fun _ => rfl) rfl
  refine taken.toFall.trans ?_
  dsimp only
  split
  case h_1 => exact .refl _
  case h_2 z busy => exact .ite fun guard => abortEvent_fall _ (unstopped_of_busy busy guard.2.2)

theorem countCorrection_lu (m : ProtectedMemory) (s : State) : (countCorrection m s).lu = s.lu := by
  have counted : ∀ n, (setCorrectableCount m n s).lu = s.lu := fun n => by
    unfold setCorrectableCount
    simp
  unfold countCorrection
  dsimp only
  split
  · simp [counted]
  · exact counted _

theorem exec_runs {c : Instr} {s t : State} (next : exec c s = .next t) : Runs s t := by
  have struck : ∀ us, Work s (strike us s) := fun us => .of_lu (by simp)
  have short : ∀ {tag kind} {status : State → AdminStatus} {effect : State → State → State},
      (∀ u, (effect u u).lu = u.lu) → ∀ u, Runs u (shortCommand tag kind (status u) (effect u) u) := fun lu u =>
    runs_of_work (shortCommand_work (lu u))
  have completed : ∀ tag k st x u, Runs u (adminComplete tag k st x u) := fun tag k st x u =>
    runs_of_work (adminComplete_work ..)
  cases c with
  | powerOn =>
    have idle : ∀ l, (State.reset.link l) = LinkContext.reset := fun _ => rfl
    exact runs_of_next ⟨fun _ l => busyOk_of_idle rfl, fun _ l => creditOk_of_none rfl rfl, fun _ => .inl rfl⟩ rfl next
  | hostLinkReset => exact runs_of_next (runs_of_fall (startHostLinkReset_fall s)) rfl next
  | functionReset w => exact runs_of_next (runs_of_fall (writeControl_fall w s)) rfl next
  | run w => exact runs_of_next (runs_of_fall (writeControl_fall w s)) rfl next
  | containmentModeWrite w => exact runs_of_next (runs_of_fall (writeControl_fall w s)) rfl next
  | systemRingRegisterWrite r v =>
    refine runs_of_next (u := writeSystemRegister r v s) ?_ rfl next
    unfold writeSystemRegister
    exact .ite fun _ => runs_of_lu (by simp)
  | registerWrite o w v => exact runs_of_next (runs_of_fall (writeWindow_fall o w v s)) rfl next
  | sqProducerIndexWrite n v => exact runs_of_next (runs_of_lu (by simp)) rfl next
  | asrProducerIndexWrite v => exact runs_of_next (runs_of_lu (by simp)) rfl next
  | cqConsumerIndexWrite n v => exact runs_of_next (runs_of_lu (by simp)) rfl next
  | acrConsumerIndexWrite v => exact runs_of_next (runs_of_lu (by simp)) rfl next
  | nrConsumerIndexWrite v => exact runs_of_next (runs_of_lu (by simp)) rfl next
  | fetchSlotGrant => exact runs_of_next (runs_of_work (fetchSlotGrant_work s)) rfl next
  | retry us => exact runs_of_next (runs_of_work ((struck us).trans (retry_work _))) rfl next
  | descriptorReadReturn i x us =>
    exact runs_of_next (runs_of_fall ((struck us).toFall.trans (slotRead_fall i x _))) rfl next
  | descriptorReadError i =>
    refine runs_of_next (runs_of_fall ?_) rfl next
    split
    case h_1 => exact .ite fun _ => failSlotRead_fall i s
    all_goals exact .refl s
  | payloadReadReturn i xs us =>
    exact runs_of_next (runs_of_fall ((struck us).toFall.trans (payloadRead_fall i xs _))) rfl next
  | payloadReadError i =>
    refine runs_of_next (runs_of_fall ?_) rfl next
    split
    case h_1 => exact .ite fun _ => failSlotRead_fall i s
    all_goals exact .refl s
  | hostReadTimeout e =>
    refine runs_of_next (runs_of_fall (.ite fun _ => ?_)) rfl next
    split
    · exact failSlotRead_fall e s
    · exact failAdminRead_fall s
  | strayReadResponse e => exact runs_of_next (runs_of_lu rfl) rfl next
  | fetchEnd r us => exact runs_of_next (runs_of_work ((struck us).trans (fetchEndEvent_work r _))) rfl next
  | commandReadStart => exact runs_of_next (runs_of_lu (by simp)) rfl next
  | commandReadError => exact runs_of_next (runs_of_fall (.ite fun _ => failAdminRead_fall s)) rfl next
  | createSq tag ring cq size limit base =>
    exact runs_of_next (takeCommand_runs (short (fun u => by simp)) s) rfl next
  | deleteSq tag ring =>
    refine runs_of_next (takeCommand_runs (fun u => ?_) s) rfl next
    split
    · exact completed ..
    · split
      case h_1 => exact completed ..
      case h_2 => exact completed ..
      all_goals exact runs_of_lu (by simp)
  | createCq tag ring vector threshold size holdoff base =>
    exact runs_of_next (takeCommand_runs (short (fun u => by simp)) s) rfl next
  | deleteCq tag ring => exact runs_of_next (takeCommand_runs (short (fun u => by simp)) s) rfl next
  | configureFlow tag flow link cls cap policy threshold =>
    exact runs_of_next (takeCommand_runs (short (fun u => by simp)) s) rfl next
  | enableFlow tag flow => exact runs_of_next (takeCommand_runs (short (fun u => by simp)) s) rfl next
  | disableFlow tag flow => exact runs_of_next (takeCommand_runs (short (fun u => by simp)) s) rfl next
  | flushFlow tag flow =>
    exact runs_of_next (takeCommand_runs (fun u => runs_of_work (flushFlow_work tag _ u)) s) rfl next
  | queryFlow tag flow =>
    refine runs_of_next (takeCommand_runs (fun u => ?_) s) rfl next
    split
    · exact completed ..
    · exact completed ..
  | enableLink tag l k => exact runs_of_next (takeCommand_runs (fun u => enableLink_runs tag _ _ u) s) rfl next
  | disableLink tag l =>
    exact runs_of_next (takeCommand_runs (fun u => runs_of_fall (disableLink_fall tag _ u)) s) rfl next
  | setClassMap tag l mask lanes => exact runs_of_next (takeCommand_runs (short (fun u => by simp)) s) rfl next
  | queryLink tag l =>
    refine runs_of_next (takeCommand_runs (fun u => ?_) s) rfl next
    split
    · exact completed ..
    · exact completed ..
  | writeCalendar tag l start count blank entries =>
    exact runs_of_next (takeCommand_runs (short (fun u => by simp)) s) rfl next
  | activateCalendar tag l =>
    exact runs_of_next (takeCommand_runs (fun u => runs_of_work (activateCalendar_work tag _ u)) s) rfl next
  | setErrorPolicy tag threshold => exact runs_of_next (takeCommand_runs (short (fun u => by simp)) s) rfl next
  | queryPool tag => exact runs_of_next (takeCommand_runs (fun u => completed ..) s) rfl next
  | unknownCommand tag kind => exact runs_of_next (takeCommand_runs (fun u => completed ..) s) rfl next
  | ready l a b c d =>
    refine runs_of_next ?_ rfl next
    split
    · next guard => exact bringUp_runs _ _ _ _ _ guard.2.2
    · exact runs_of_fall (protocolError_fall ..)
  | credit l lane n =>
    refine runs_of_next (runs_of_fall ?_) rfl next
    split
    · exact .ite fun _ => takeCredit_fall ..
    · exact protocolError_fall ..
  | down l x =>
    refine runs_of_next (runs_of_fall (.ite fun _ => ?_)) rfl next
    split
    · exact failLinkEvent_fall ..
    · exact downInDrain_fall ..
    all_goals exact .refl s
  | malformedMessage l => exact runs_of_next (runs_of_fall (protocolError_fall ..)) rfl next
  | offerTimerExpiry l => exact runs_of_next (.ite fun guard => offerTimer_runs _ guard.2.1) rfl next
  | linkUpTimerExpiry l =>
    exact runs_of_next (runs_of_fall (.ite fun guard => linkUpExpiry_fall _ s guard.2.1)) rfl next
  | cellSent l us => exact runs_of_next (runs_of_fall ((struck us).toFall.trans (cellSent_fall l _))) rfl next
  | underrunTimerExpiry l =>
    refine runs_of_next (runs_of_fall ?_) rfl next
    split
    case h_1 => exact .refl s
    case h_2 z busy => exact .ite fun guard => abortEvent_fall _ (unstopped_of_busy busy (by simp_all))
  | abortOrder l r => exact runs_of_next (runs_of_fall (abortOrder_fall l r s)) rfl next
  | holdoffTimerExpiry n => exact runs_of_next (.ite fun _ => runs_of_lu (by simp)) rfl next
  | correctionReport m =>
    refine runs_of_next (runs_of_lu ?_) rfl next
    split <;> simp [countCorrection_lu]
  | cellDataErrorReport l cell =>
    refine runs_of_next (runs_of_lu ?_) rfl next
    split <;> simp
  | fatalReport cause =>
    refine runs_of_next (runs_of_fall ((Fall.of_lu (t := takeReport (.fatal cause) s) (by simp)).trans ?_)) rfl next
    split
    case h_1 => exact contain_fall ..
    all_goals exact .of_lu (by simp)
  | selfResetCompletion => exact runs_of_next (.ite fun _ => runs_of_fall (completeSelfReset_fall s)) rfl next
  | functionResetCompletion => exact runs_of_next (.ite fun _ => runs_of_fall (.of_reset rfl)) rfl next
  | flushEnd f => exact runs_of_next (.ite fun _ => runs_of_lu (by simp)) rfl next
  | deletionEnd n => exact runs_of_next (.ite fun _ => runs_of_lu (by simp)) rfl next
  | drainEnd l => exact runs_of_next (.ite fun guard => runs_of_fall (endDrain_fall guard.2.2)) rfl next
  | activationApply l => exact runs_of_next (.ite fun _ => runs_of_lu (by simp)) rfl next

/-- Settles O52: what is sent goes out within the laws of the links, command by command. -/
theorem framePartsOnLiveLinks : Obligations.FramePartsOnLiveLinks := by
  intro s t law next
  rcases step_cases next with rfl | ⟨c, rest, next⟩
  · exact ⟨law, .inr ⟨[], by simp, by simp⟩⟩
  · have runs := exec_runs next
    exact ⟨runs.busy law, runs.sent law⟩

/-- Settles O51: the pieces of a step keep the memory's form and the backlog's law, its links the law of credit. -/
theorem memoryBacklogAndCreditKept : Obligations.MemoryBacklogAndCreditKept := by
  intro s t next
  rcases step_cases next with rfl | ⟨c, rest, next⟩
  · exact ⟨id, id, id⟩
  · obtain ⟨-, memory, backlog⟩ := made_settled (Datapath.exec_made next)
    exact ⟨memory, backlog, (exec_runs next).credit⟩

end Sys2Proof.Proofs.LinkSteps

/-! The reset values (R1 to R8, R21, R39, R66, R81, R86, R118, R133, R154), and the laws in the state after power-on. -/

namespace Sys2Proof.Proofs.Reset

open Sys2Proof Sys2Proof.Machine Sys2Proof.Proofs.Datapath

theorem reset_blank : blank State.reset := ⟨rfl, rfl, rfl⟩

theorem reset_linkEntry (c : Nat) : State.reset.linkEntry c = if c < 8191 then some (c + 1) else none := rfl

theorem reset_freeRecords : State.reset.bm.freeRecords = List.range 2048 := by
  rw [State.reset, BmBlock.reset, recordTotal]

/-- Settles O4: the tables start empty, so every number holds what an unlisted one holds. -/
theorem resetValuesOfBlocks : Obligations.ResetValuesOfBlocks := by
  refine ⟨fun _ _ _ _ => rfl, ⟨rfl, rfl, rfl⟩, fun c small => by rw [reset_linkEntry, if_pos small],
    by rw [reset_linkEntry, if_neg (by omega)], rfl, rfl, rfl, reset_freeRecords, ?frames, ?flows, ?sqs, ?slots, rfl, rfl,
    ?links, ?credit, ?schedulers, ?cqs, ?rest⟩
  case frames | flows | sqs | slots | links | cqs => exact fun _ _ => rfl
  case credit => exact fun _ _ _ _ => ⟨rfl, rfl⟩
  case schedulers => exact fun _ _ => ⟨rfl, rfl, rfl, rfl, fun _ _ => rfl, fun _ _ => ⟨rfl, rfl⟩⟩
  case rest =>
    exact ⟨rfl, rfl, rfl, rfl, rfl, rfl, rfl, rfl, rfl, rfl, rfl, rfl, rfl, rfl, rfl, rfl, rfl, rfl, rfl, rfl, rfl, rfl⟩

theorem reset_memoryForm : State.reset.memoryForm := by
  rw [State.memoryForm]
  decide

theorem reset_backlogLaw : State.reset.backlogLaw := ⟨.nil, fun _ mem => absurd mem List.not_mem_nil⟩

theorem reset_lineLaw : FlowQueues.lineLaw State.reset := fun f => by
  have queue : (State.reset.flow f).queue = [] := rfl
  have frame : ∀ r, State.reset.frame r = FrameRecord.reset := fun _ => rfl
  rw [queue]
  exact ⟨.nil, fun r => by simp [frame, FlowQueues.not_queued_reset], by simp⟩

theorem reset_queueLaw : State.reset.queueLaw :=
  (FlowQueues.queueLaw_iff _).mpr ⟨reset_lineLaw, FlowQueues.shareLaw_of_reset rfl⟩

theorem reset_poolLaw : State.reset.poolLaw :=
  CellPool.poolLaw_of_pool (CellPool.pool_of_reset rfl) fun n h (held : none = some h) => absurd held (by simp)

theorem reset_descriptorLaw : State.reset.descriptorLaw :=
  ⟨fun _ => reset_blank, fun running => absurd running (by decide)⟩

theorem reset_acrEmpty : State.reset.acrEmpty := ⟨rfl, by decide, rfl, rfl⟩

/-- Settles O50: every table of the reset state is empty, so each law speaks of nothing but the free lists. -/
theorem lawsHoldAtReset : Obligations.LawsHoldAtReset := by
  refine ⟨reset_memoryForm, ?credit, ?busy, reset_backlogLaw, Records.recordLaw_of_reset rfl, reset_poolLaw, reset_queueLaw,
    ?limit, reset_descriptorLaw, ?rings, fun _ => reset_acrEmpty, .inl reset_acrEmpty⟩
  case credit => exact fun l => Links.creditOk_of_none (c := State.reset.link l) rfl rfl
  case busy => exact fun l => Links.busyOk_of_idle (c := State.reset.link l) rfl
  case limit => exact fun n => Nat.le_refl _
  case rings => exact fun n (active : CqState.absent = .active) => absurd active (by decide)

end Sys2Proof.Proofs.Reset

/-! The law of the admin completion ring (R136): the slots promised and the completions not yet consumed. A command that
arrives brings the slot its read had promised; its completion, or its entry in the outstanding list, takes it. -/

namespace Sys2Proof.Proofs.AdminLedger

open Sys2Proof Sys2Proof.Machine Host Sys2Proof.Proofs.CompletionLedger

/-- The ring's slots promised, the completions not consumed and `k` slots more are below its size. -/
def acrFit (k : Nat) (s : State) : Prop :=
  s.ap.acrTail < s.hp.acrSize.toNat ∧ s.ap.acrConsumer < s.hp.acrSize.toNat ∧
    acrUnconsumed s + acrReserved s + k ≤ s.hp.acrSize.toNat - 1

theorem acrLaw_iff (s : State) : s.acrLaw ↔ (s.hp.device = .stopped → s.acrEmpty) ∧ (s.acrEmpty ∨ acrFit 0 s) := by
  simp only [State.acrLaw, acrFit, acrUnconsumed, acrReserved, ringDistance, Nat.add_zero, Nat.add_assoc]

/-! ### Operations that take no slot -/

/-- The slots taken are as many as the slots given back, and the HP's registers and device state stand. -/
structure Calm (s t : State) : Prop where
  fixed : t.hp.fixed = s.hp.fixed
  fit : ∀ k, acrFit k s → acrFit k t
  empty : s.acrEmpty → t.acrEmpty

theorem device_of_fixed {s t : State} (fixed : t.hp.fixed = s.hp.fixed) : t.hp.device = s.hp.device :=
  (HpBlock.fields_of_fixed fixed).1

theorem acrSize_of_fixed {s t : State} (fixed : t.hp.fixed = s.hp.fixed) : t.hp.acrSize = s.hp.acrSize := by
  obtain ⟨-, -, -, -, -, -, -, size, -⟩ := HpBlock.fields_of_fixed fixed
  exact size

theorem acrFit_of_ap {s t : State} {k : Nat} (size : t.hp.acrSize = s.hp.acrSize) (ap : t.ap = s.ap) (h : acrFit k s) :
    acrFit k t := by
  simpa only [acrFit, acrUnconsumed, acrReserved, size, ap] using h

theorem Calm.of_ap {s t : State} (fixed : t.hp.fixed = s.hp.fixed) (ap : t.ap = s.ap) : Calm s t :=
  ⟨fixed, fun _ => acrFit_of_ap (acrSize_of_fixed fixed) ap, by simp [State.acrEmpty, ap]⟩

theorem Calm.refl (s : State) : Calm s s := .of_ap rfl rfl

theorem Calm.trans {s t u : State} (h : Calm s t) (g : Calm t u) : Calm s u :=
  ⟨g.fixed.trans h.fixed, fun k fit => g.fit k (h.fit k fit), fun empty => g.empty (h.empty empty)⟩

theorem Calm.ite {p : Prop} [Decidable p] {s u : State} (calm : p → Calm s u) : Calm s (if p then u else s) := by
  split
  case isTrue h => exact calm h
  case isFalse => exact .refl s

/-- A check leaves the AP and the HP alone. -/
theorem Calm.of_answer {β : Type} {s s1 : State} {b : β} {a : β × State} (calm : Calm s a.2) (answer : a = (b, s1)) :
    Calm s s1 := by
  rwa [answer] at calm

/-! ### Completions -/

theorem adminComplete_ap (tag : BitVec 16) (kind : Nat) (st : AdminStatus) (x : Nat) (s : State) :
    (adminComplete tag kind st x s).ap = { s.ap with
      acrTail := advance s.hp.acrSize.toNat s.ap.acrTail,
      acrPhase := if s.ap.acrTail + 1 = s.hp.acrSize.toNat then !s.ap.acrPhase else s.ap.acrPhase } := by
  simp [adminComplete]

/-- A completion takes one slot. -/
theorem adminComplete_fit {k : Nat} (tag : BitVec 16) (kind : Nat) (st : AdminStatus) (x : Nat) {s : State}
    (fit : acrFit (k + 1) s) : acrFit k (adminComplete tag kind st x s) := by
  obtain ⟨tail, consumer, room⟩ := fit
  have size : (adminComplete tag kind st x s).hp.acrSize = s.hp.acrSize := acrSize_of_fixed (by simp)
  obtain ⟨small, distance⟩ := ringDistance_advance tail consumer (by unfold acrUnconsumed at room; omega)
  simp only [acrFit, acrUnconsumed, acrReserved, size, adminComplete_ap] at room ⊢
  exact ⟨small, consumer, by omega⟩

theorem takeOutstanding_length {op : LongOperation} {es rest : List Outstanding} {e : Outstanding}
    (taken : takeOutstanding op es = some (e, rest)) : es.length = rest.length + 1 := by
  induction es generalizing rest with
  | nil => cases taken
  | cons x es ih =>
    unfold takeOutstanding at taken
    split at taken
    · cases taken; rfl
    · split at taken
      · cases taken
      · next y others found =>
        cases taken
        simpa using ih found

/-- The end of a long command gives back the slot that its completion takes. -/
theorem endLong_calm (op : LongOperation) (st : AdminStatus) (x : Nat) (s : State) : Calm s (endLong op st x s) := by
  refine ⟨by simp, fun k fit => ?_, fun empty => ?_⟩
  · unfold endLong
    split
    · exact fit
    · next e rest taken =>
      have length := takeOutstanding_length taken
      obtain ⟨tail, consumer, room⟩ := fit
      refine adminComplete_fit _ _ _ _ ⟨tail, consumer, ?_⟩
      unfold acrReserved acrUnconsumed at room
      show ringDistance s.hp.acrSize.toNat s.ap.acrTail s.ap.acrConsumer +
        (rest.length + if s.ap.state = .reading then 1 else 0) + (k + 1) ≤ s.hp.acrSize.toNat - 1
      omega
  · rw [endLong_not_owed]
    · exact empty
    · simp [empty.1]

/-- A long command taken promises one slot. -/
theorem appendOutstanding_fit {k : Nat} (op : LongOperation) (tag : BitVec 16) {s : State} (fit : acrFit (k + 1) s) :
    acrFit k (appendOutstanding op tag s) := by
  obtain ⟨tail, consumer, room⟩ := fit
  refine ⟨tail, consumer, ?_⟩
  unfold acrReserved acrUnconsumed at room
  show ringDistance s.hp.acrSize.toNat s.ap.acrTail s.ap.acrConsumer +
    ((s.ap.outstanding ++ [_]).length + if s.ap.state = .reading then 1 else 0) + k ≤ s.hp.acrSize.toNat - 1
  rw [List.length_append, List.length_singleton]
  omega

/-- A command read promises one slot, and starts only where one is free. -/
theorem startCommandRead_keeps {s : State} (law : s.acrEmpty ∨ acrFit 0 s) :
    (startCommandRead s).acrEmpty ∨ acrFit 0 (startCommandRead s) := by
  unfold startCommandRead
  split
  case isFalse => exact law
  case isTrue allowed =>
    simp only [commandReadAllowed, Bool.and_eq_true, decide_eq_true_eq] at allowed
    obtain ⟨⟨⟨-, idle⟩, -⟩, free⟩ := allowed
    have positions : s.ap.acrTail < s.hp.acrSize.toNat ∧ s.ap.acrConsumer < s.hp.acrSize.toNat := by
      rcases law with ⟨-, -, tail, consumer⟩ | ⟨tail, consumer, -⟩
      · unfold acrFree at free
        omega
      · exact ⟨tail, consumer⟩
    refine .inr ⟨positions.1, positions.2, ?_⟩
    unfold acrFree acrUnconsumed acrReserved at free
    rw [if_neg (by simp [idle])] at free
    show ringDistance s.hp.acrSize.toNat s.ap.acrTail s.ap.acrConsumer + (s.ap.outstanding.length + 1) + 0 ≤
      s.hp.acrSize.toNat - 1
    omega

/-- The outstanding commands are completed ABORTED into the slots promised to them (R152). -/
theorem abortOutstanding_fit (es : List Outstanding) {s : State}
    (fit : s.ap.acrTail < s.hp.acrSize.toNat ∧ s.ap.acrConsumer < s.hp.acrSize.toNat ∧
      acrUnconsumed s + es.length + (if s.ap.state = .reading then 1 else 0) ≤ s.hp.acrSize.toNat - 1) :
    acrFit 0 (abortOutstanding es s) := by
  induction es generalizing s with
  | nil => simpa [acrFit, abortOutstanding, acrUnconsumed, acrReserved] using fit
  | cons e es ih =>
    obtain ⟨tail, consumer, room⟩ := fit
    rw [List.length_cons] at room
    have size : ∀ k x, (adminComplete e.tag k .aborted x s).hp.acrSize = s.hp.acrSize := fun k x => acrSize_of_fixed (by simp)
    obtain ⟨small, distance⟩ := ringDistance_advance tail consumer (by unfold acrUnconsumed at room; omega)
    refine ih ?_
    simp only [acrUnconsumed, size, adminComplete_ap] at room ⊢
    exact ⟨small, consumer, by omega⟩

/-! ### Operations made of others -/

theorem endFlush_calm (f : Nat) (s : State) : Calm s (endFlush f s) := by
  unfold endFlush
  exact .ite fun _ => .trans (.of_ap (by simp) (by simp)) (endLong_calm ..)

theorem endDeletion_calm (n : Nat) (s : State) : Calm s (endDeletion n s) := by
  unfold endDeletion
  exact .ite fun _ => .trans (.of_ap (by simp) (by simp)) (endLong_calm ..)

theorem retire_calm (r : Nat) {s u : State} (record : Calm s (retireRecord r u)) : Calm s (retire r u) :=
  (record.trans (endFlush_calm _ _)).trans (endDeletion_calm _ _)

theorem takeLinkEnd_calm (r : Nat) (cause : Option FrameCause) (s : State) : Calm s (takeLinkEnd r cause s) := by
  unfold takeLinkEnd
  refine .ite fun _ => ?_
  dsimp only
  split
  · exact retire_calm r (.of_ap (by simp) (by simp))
  · exact .of_ap (by simp) (by simp)

theorem abortFrame_calm (l : Nat) (cause : FrameCause) (s : State) : Calm s (abortFrame l cause s) := by
  unfold abortFrame
  split
  · exact .refl s
  · exact .trans (.of_ap (by simp) (by simp)) (takeLinkEnd_calm ..)

theorem goodFrame_calm (l : Nat) (s : State) : Calm s (goodFrame l s) := by
  unfold goodFrame
  split
  · exact .refl s
  · exact .trans (.of_ap (by simp) (by simp)) (takeLinkEnd_calm ..)

theorem beginCell_calm (l : Nat) (s : State) : Calm s (beginCell l s) := by
  unfold beginCell
  split
  · exact .refl s
  · next z _ =>
    have checked : Calm s (checkCell z.nextCell (cellLength (s.frame z.record) z.sent) s).2 := .of_ap (by simp) (by simp)
    split
    · next s1 answer => exact (checked.of_answer answer).trans (.of_ap (by simp) (by simp))
    · next s1 answer =>
      have reported : Calm s1 (sendReport (.cellData l z.nextCell) s1) := .of_ap (by simp) (by simp)
      exact ((checked.of_answer answer).trans reported).trans (abortFrame_calm ..)

theorem applyActivation_calm (l : Nat) (s : State) : Calm s (applyActivation l s) :=
  .trans (.of_ap (by simp) (by simp)) (endLong_calm ..)

theorem grantHead_calm (l f r : Nat) (s : State) : Calm s (grantHead l f r s) :=
  .trans (.of_ap (by simp) (by simp)) (beginCell_calm ..)

theorem award_calm (l f : Nat) (pointers : Scheduler → Scheduler) (s : State) : Calm s (award l f pointers s).2 := by
  unfold award
  split
  · exact .refl s
  · exact (Calm.of_ap (t := s.setSched l (pointers (s.sched l))) (by simp) (by simp)).trans (grantHead_calm ..)

theorem calendarWrap_calm (l : Nat) (s : State) : Calm s (calendarWrap l s).2 := by
  unfold calendarWrap
  split
  · refine (applyActivation_calm l s).trans ?_
    dsimp only
    split
    · exact award_calm ..
    · exact .refl _
  · dsimp only
    split
    · exact award_calm ..
    · exact .refl _

theorem arbitrate_calm (l : Nat) (s : State) : Calm s (arbitrate l s).2 := by
  unfold arbitrate
  split
  · exact award_calm ..
  · unfold calendarTier
    dsimp only
    split
    · exact award_calm ..
    · exact calendarWrap_calm l s

theorem considerTimes_calm (k l : Nat) (s : State) : Calm s (considerTimes k l s) := by
  induction k generalizing s with
  | zero => exact .refl s
  | succ k ih =>
    unfold considerTimes
    refine .ite fun _ => ?_
    have read : Calm s (readHeads (heads s) s).2 := .of_ap (by simp) (by simp)
    split
    · exact .ite fun _ => applyActivation_calm l s
    · split
      · next s1 answer => exact read.of_answer answer
      · next s1 answer =>
        refine (read.of_answer answer).trans (.ite fun _ => ?_)
        have arbitrated := arbitrate_calm l s1
        split
        · next s2 made =>
          have before := arbitrated.of_answer made
          split
          · exact before.trans (ih s2)
          · exact before
        · next s2 made => exact arbitrated.of_answer made

theorem consider_calm (l : Nat) (s : State) : Calm s (consider l s) := considerTimes_calm _ l s

theorem endLinkCommand_calm (l : Nat) (st : AdminStatus) (s : State) : Calm s (endLinkCommand l st s) := by
  have noted : Calm s (s.setLink l { s.link l with outstanding := none }) := .of_ap (by simp) (by simp)
  unfold endLinkCommand
  dsimp only
  split
  · exact noted
  · exact noted.trans (endLong_calm ..)
  · exact noted.trans (endLong_calm ..)

theorem endDrain_calm (l : Nat) (s : State) : Calm s (endDrain l s) :=
  .trans (.of_ap (by simp) (by simp)) (endLinkCommand_calm ..)

theorem afterLinkEnd_calm (l : Nat) (s : State) : Calm s (afterLinkEnd l s) := by
  unfold afterLinkEnd
  split
  · exact endDrain_calm l s
  · exact consider_calm l s
  all_goals exact .refl s

theorem applyAtDeparture_calm (l : Nat) (s : State) : Calm s (applyAtDeparture l s) := by
  unfold applyAtDeparture
  exact .ite fun _ => applyActivation_calm l s

theorem setLink_calm (l : Nat) (c : LinkContext) (s : State) : Calm s (s.setLink l c) := .of_ap (by simp) (by simp)

theorem clearCredit_calm (l : Nat) (x : LinkState) (s : State) : Calm s (clearCredit l x s) := .of_ap (by simp) (by simp)

theorem loseFrame_calm (l : Nat) (s : State) : Calm s (loseFrame l s) := by
  unfold loseFrame
  split
  · exact .refl s
  · split
    · exact .of_ap (by simp) (by simp)
    · exact .trans (.of_ap (by simp) (by simp)) (takeLinkEnd_calm ..)

theorem checkSending_calm (l : Nat) (s : State) : Calm s (checkSending l s).2 := .of_ap (by simp) (by simp)

theorem failLink_calm (l : Nat) (cause : LinkCause) (s : State) : Calm s (failLink l cause s) := by
  have failed : Calm (loseFrame l s) ((clearCredit l .failed (loseFrame l s)).setLink l
      { (clearCredit l .failed (loseFrame l s)).link l with cause := some cause }) := .of_ap (by simp) (by simp)
  have told : ∀ u, Calm u (raiseNotice (.linkFailed l cause) (if cause = .partnerDown then u else u.send l (.down l))) :=
    fun u => .of_ap (by split <;> simp) (by split <;> simp)
  have ended : ∀ u, Calm u (if (s.link l).state = .draining then
      endLinkCommand l .ok (u.setLink l { u.link l with state := .disabled }) else applyAtDeparture l u) := fun u => by
    split
    · exact (setLink_calm l { u.link l with state := .disabled } u).trans (endLinkCommand_calm ..)
    · exact applyAtDeparture_calm ..
  exact (loseFrame_calm l s).trans ((failed.trans (told _)).trans (ended _))

theorem failLinkEvent_calm (l : Nat) (cause : LinkCause) (s : State) : Calm s (failLinkEvent l cause s) := by
  unfold failLinkEvent
  split
  · next s1 answer => exact ((checkSending_calm l s).of_answer answer).trans (failLink_calm ..)
  · next s1 answer => exact (checkSending_calm l s).of_answer answer

theorem protocolError_calm (l : Nat) (s : State) : Calm s (protocolError l s) := .ite fun _ => failLinkEvent_calm ..

theorem downInDrain_calm (l : Nat) (s : State) : Calm s (downInDrain l s) := by
  unfold downInDrain
  split
  · next s1 answer =>
    exact ((((checkSending_calm l s).of_answer answer).trans (loseFrame_calm ..)).trans (clearCredit_calm ..)).trans
      (endLinkCommand_calm ..)
  · next s1 answer => exact (checkSending_calm l s).of_answer answer

theorem takeCredit_calm (l lane k : Nat) (s : State) : Calm s (takeCredit l lane k s) := by
  unfold takeCredit
  split
  · exact .trans (.of_ap (by simp) (by simp)) (consider_calm ..)
  · exact failLinkEvent_calm ..

theorem bringUp_calm (l a b c d : Nat) (s : State) : Calm s (bringUp l a b c d s) :=
  ((Calm.of_ap (by simp) (by simp)).trans (endLinkCommand_calm l .ok _)).trans (consider_calm ..)

theorem leads_calm (l : Nat) (s : State) :
    Calm s (if (s.link l).serializer = none then afterLinkEnd l s else s) := .ite fun _ => afterLinkEnd_calm ..

theorem nextCell_calm (l : Nat) (z : Serializer) (s : State) : Calm s (nextCell l z s) := by
  have moved : ∀ w, Calm s (setSerializer l w s) := fun w => .of_ap (by simp) (by simp)
  unfold nextCell
  dsimp only
  split
  · exact ((moved _).trans (beginCell_calm ..)).trans (leads_calm ..)
  · exact moved _

theorem endCell_calm (l : Nat) (z : Serializer) (s : State) : Calm s (endCell l z s) := by
  have stop : ∀ u, Calm u (stopSerializer l u) := fun u => .of_ap (by simp) (by simp)
  have counts : ∀ u w, Calm u (setSerializer l w u) := fun u w => .of_ap (by simp) (by simp)
  have cell : Calm s (s.send l (.cell (cellPayload s z.nextCell (cellLength (s.frame z.record) z.sent)))) :=
    .of_ap (by simp) (by simp)
  have checked : ∀ u, Calm u (checkRecord z.record u).2 := fun u => .of_ap (by simp) (by simp)
  unfold endCell
  dsimp only
  split
  · next s1 answer => exact (cell.trans ((checked _).of_answer answer)).trans (stop s1)
  · next s1 answer =>
    have first := cell.trans ((checked _).of_answer answer)
    have linked : Calm s1 (if z.sent + 1 = z.cellCount then (true, s1) else checkLink z.nextCell s1).2 := by
      split
      · exact .refl s1
      · exact .of_ap (by simp) (by simp)
    split
    · next s2 answer => exact (first.trans (linked.of_answer answer)).trans (stop s2)
    · next s2 answer =>
      have counted : Calm s2 (countSent z.record s2) := .of_ap (by simp) (by simp)
      refine ((first.trans (linked.of_answer answer)).trans counted).trans ?_
      split
      · exact ((counts _ _).trans (goodFrame_calm ..)).trans (afterLinkEnd_calm ..)
      · exact nextCell_calm ..

theorem takeFillReport_calm (l r k : Nat) (s : State) : Calm s (takeFillReport l r k s) := by
  have counts : ∀ w, Calm s (setSerializer l w s) := fun w => .of_ap (by simp) (by simp)
  unfold takeFillReport
  split
  · exact .refl s
  · refine .ite fun _ => ?_
    dsimp only
    split
    · exact (counts _).trans (beginCell_calm ..)
    · exact counts _

theorem abortEvent_calm (l : Nat) (cause : FrameCause) (s : State) : Calm s (abortEvent l cause s) := by
  unfold abortEvent
  split
  · next s1 answer =>
    exact (((checkSending_calm l s).of_answer answer).trans (abortFrame_calm ..)).trans (afterLinkEnd_calm ..)
  · next s1 answer => exact (checkSending_calm l s).of_answer answer

/-! ### The fetch path -/

theorem startAdmitted_calm (i n r : Nat) (d : Descriptor) (s : State) : Calm s (startAdmitted i n r d s) := by
  have begun : Calm s (beginPayload i n r d.used s) := .of_ap (by simp) (by simp)
  unfold startAdmitted
  dsimp only
  split
  · exact begun.trans (consider_calm ..)
  · exact begun

theorem takeDescriptor_calm (i n k : Nat) (d : Descriptor) (s : State) : Calm s (takeDescriptor i n k d s) := by
  have requested : Calm s (requestAdmission n d (cellNeed d.length) s).2 := .of_ap (by simp) (by simp)
  unfold takeDescriptor
  split
  · exact .of_ap (by simp) (by simp)
  · split
    · next s1 answer => exact requested.of_answer answer
    · next s1 answer => exact (requested.of_answer answer).trans (.of_ap (by simp) (by simp))
    · next s1 answer =>
      refine (requested.of_answer answer).trans ?_
      split
      · exact .of_ap (by simp) (by simp)
      · exact .of_ap (by simp) (by simp)
    · next r s1 answer =>
      have taken : Calm s1 (takeHead n s1) := .of_ap (by simp) (by simp)
      exact ((requested.of_answer answer).trans taken).trans (startAdmitted_calm ..)

theorem releaseRead_calm (i n : Nat) (s : State) : Calm s (releaseRead i n s) := .of_ap (by simp) (by simp)

theorem returnDescriptor_calm (i n k : Nat) (x : BitVec 512) (s : State) : Calm s (returnDescriptor i n k x s) := by
  unfold returnDescriptor
  split
  case h_1 => exact takeDescriptor_calm ..
  all_goals exact (releaseRead_calm i n s).trans (endDeletion_calm ..)

theorem failDescriptor_calm (i n k : Nat) (s : State) : Calm s (failDescriptor i n k s) := by
  unfold failDescriptor
  dsimp only
  split
  case h_1 => exact .of_ap (by simp) (by simp)
  all_goals exact (releaseRead_calm i n s).trans (endDeletion_calm ..)

theorem reportFill_calm (r : Nat) (s : State) : Calm s (reportFill r s) := by
  have told : Calm s (if (s.frame r).state = .sending then
      takeFillReport (s.flow (s.frame r).flow).link r (s.frame r).filled s else s) := .ite fun _ => takeFillReport_calm ..
  unfold reportFill
  exact told.trans (leads_calm ..)

theorem returnPayload_calm (i n r : Nat) (gs : List Segment) (c o : Nat) (xs : List Byte) (s : State) :
    Calm s (returnPayload i n r gs c o xs s) := by
  have presented : Calm s (presentBytes r xs s).2 := .of_ap (by simp) (by simp)
  have advanced : ∀ u, Calm u (advancePayload i n r gs c o xs.length u) := fun u => .of_ap (by simp) (by simp)
  have reported : ∀ {p : Prop} [Decidable p] {u : State}, Calm s u → Calm s (if p then reportFill r u else u) :=
    fun before => before.trans (.ite fun _ => reportFill_calm r _)
  unfold returnPayload
  dsimp only
  split
  · next s1 answer => exact reported ((presented.of_answer answer).trans (advanced s1))
  · next s1 answer => exact reported (presented.of_answer answer)

theorem applyFetchEnd_calm (r : Nat) (ok : Bool) (s : State) : Calm s (applyFetchEnd r ok s) := by
  have apart : ∀ g, Calm s (retire r (s.setFrame r g)) := fun g => retire_calm r (.of_ap (by simp) (by simp))
  have filling : Calm s (failFilling r s) := by
    have retired : ∀ g, Calm s (retire r (leaveQueue r (s.setFrame r g))) := fun g =>
      retire_calm r (.of_ap (by simp) (by simp))
    unfold failFilling
    dsimp only
    split
    · exact (retired _).trans (consider_calm ..)
    · exact retired _
  unfold applyFetchEnd
  dsimp only
  split
  case h_1 =>
    split
    · exact .of_ap (by simp) (by simp)
    · exact filling
  case h_2 => exact .of_ap (by simp) (by simp)
  case h_3 =>
    split
    · exact .of_ap (by simp) (by simp)
    · exact .of_ap (by simp) (by simp)
  case h_4 => exact apart _
  case h_5 => exact apart _
  case h_6 => exact .refl s

theorem fetchEndEvent_calm (r : Nat) (s : State) : Calm s (fetchEndEvent r s) := by
  unfold fetchEndEvent
  split
  case h_1 => exact .refl s
  case h_2 ok rest _ =>
    have taken : Calm s (s.onBm fun b => { b with fetchEnds := rest }) := .of_ap (by simp) (by simp)
    have checked : ∀ u, Calm u (checkRecord r u).2 := fun u => .of_ap (by simp) (by simp)
    refine taken.trans (.ite fun _ => ?_)
    split
    case h_1 s2 answer => exact ((checked _).of_answer answer).trans (applyFetchEnd_calm ..)
    case h_2 s2 answer => exact (checked _).of_answer answer

theorem retryHeld_calm (i n : Nat) (h : HeldCopy) (s : State) : Calm s (retryHeld i n h s) := by
  have requested : Calm s (requestAdmission n h.descriptor h.need s).2 := .of_ap (by simp) (by simp)
  unfold retryHeld
  dsimp only
  split
  · next s1 answer => exact (requested.of_answer answer).trans (.of_ap (by simp) (by simp))
  · next s1 answer => exact (requested.of_answer answer).trans (.of_ap (by simp) (by simp))
  · next s1 answer =>
    refine (requested.of_answer answer).trans ?_
    split
    · exact .of_ap (by simp) (by simp)
    · split
      · exact .of_ap (by simp) (by simp)
      · exact .of_ap (by simp) (by simp)
  · next r s1 answer =>
    have cleared : Calm s1 (clearHeld n s1) := .of_ap (by simp) (by simp)
    exact ((requested.of_answer answer).trans cleared).trans (startAdmitted_calm ..)

end Sys2Proof.Proofs.AdminLedger

/-! The law of the admin completion ring over a whole step (R136). -/

namespace Sys2Proof.Proofs.AdminSteps

open Sys2Proof Sys2Proof.Machine Host Sys2Proof.Proofs.AdminLedger Sys2Proof.Proofs.CompletionLedger
open Sys2Proof.Proofs.Steps

/-- Nothing promised and nothing written, or all of it within the ring. -/
def sound (s : State) : Prop := s.acrEmpty ∨ acrFit 0 s

theorem acrLaw_of_sound {s : State} (up : s.hp.device ≠ .stopped) (h : sound s) : s.acrLaw :=
  (acrLaw_iff s).mpr ⟨fun stopped => absurd stopped up, h⟩

theorem acrLaw_of_empty {s : State} (h : s.acrEmpty) : s.acrLaw := (acrLaw_iff s).mpr ⟨fun _ => h, .inl h⟩

theorem sound_of_law {s : State} (law : s.acrLaw) : sound s := ((acrLaw_iff s).mp law).2

theorem sound_of_calm {s t : State} (calm : Calm s t) (h : sound s) : sound t := h.imp calm.empty (calm.fit 0)

theorem acrLaw_of_calm {s t : State} (calm : Calm s t) (law : s.acrLaw) : t.acrLaw := by
  obtain ⟨stopped, sound⟩ := (acrLaw_iff s).mp law
  exact (acrLaw_iff t).mpr ⟨fun halted => calm.empty (stopped (device_of_fixed calm.fixed ▸ halted)), sound_of_calm calm sound⟩

theorem acrEmpty_of_ap {s t : State} (ap : t.ap = s.ap) (h : s.acrEmpty) : t.acrEmpty := by
  simpa only [State.acrEmpty, ap] using h

theorem sound_of_ap {s t : State} (size : t.hp.acrSize = s.hp.acrSize) (ap : t.ap = s.ap) (h : sound s) : sound t :=
  h.imp (acrEmpty_of_ap ap) (acrFit_of_ap size ap)

theorem acrLaw_of_ap {s t : State} (size : t.hp.acrSize = s.hp.acrSize) (ap : t.ap = s.ap)
    (device : t.hp.device = .stopped → s.hp.device = .stopped) (law : s.acrLaw) : t.acrLaw := by
  obtain ⟨stopped, sound⟩ := (acrLaw_iff s).mp law
  exact (acrLaw_iff t).mpr ⟨fun halted => acrEmpty_of_ap ap (stopped (device halted)), sound_of_ap size ap sound⟩

/-- What follows a change of the device's state. -/
theorem acrLaw_of_entered {s t : State} {f : HpBlock → HpBlock} (calm : Calm (s.onHp f) t)
    (size : (f s.hp).acrSize = s.hp.acrSize) (up : (f s.hp).device ≠ .stopped) (law : s.acrLaw) : t.acrLaw :=
  acrLaw_of_sound (by rw [device_of_fixed calm.fixed]; exact up)
    (sound_of_calm calm (sound_of_ap (t := s.onHp f) size rfl (sound_of_law law)))

theorem acrLaw_ite {p : Prop} [Decidable p] {s u : State} (kept : p → u.acrLaw) (law : s.acrLaw) :
    (if p then u else s).acrLaw := by
  split
  case isTrue h => exact kept h
  case isFalse => exact law

theorem startCommandRead_law {s : State} (law : s.acrLaw) : (startCommandRead s).acrLaw := by
  obtain ⟨stopped, sound⟩ := (acrLaw_iff s).mp law
  refine (acrLaw_iff _).mpr ⟨fun halted => ?_, startCommandRead_keeps sound⟩
  have halted : s.hp.device = .stopped := by simpa using halted
  rw [startCommandRead, if_neg (by simp [commandReadAllowed, halted])]
  exact stopped halted

/-! ### Device states -/

theorem calm_foldl {α : Type} {f : State → α → State} (each : ∀ s a, Calm s (f s a)) (as : List α) (s : State) :
    Calm s (as.foldl f s) := by
  induction as generalizing s with
  | nil => exact .refl s
  | cons a as ih => exact (each s a).trans (ih _)

theorem forLinks_calm {f : Nat → State → State} (each : ∀ l s, Calm s (f l s)) (s : State) : Calm s (forLinks f s) :=
  calm_foldl (fun s l => each l s) _ s

theorem raiseNotice_calm (n : Notice) (s : State) : Calm s (raiseNotice n s) := .of_ap (by simp) (by simp)

theorem dropped_calm (s : State) : Calm s (dropReports (stopHoldoffs s)) := .of_ap (by simp) (by simp)

theorem enterFailed_law (down : Bool) {s : State} (law : s.acrLaw) : (enterFailed down s).acrLaw := by
  have halted : ∀ u, Calm u (forLinks haltLink u) := forLinks_calm fun l u => .of_ap (by simp) (by simp)
  have taken : ∀ u, Calm u (forLinks takeDownLink u) := forLinks_calm fun l u => .of_ap (by simp) (by simp)
  have noticed : ∀ u, Calm u (forLinks (noticeTakenDown s) u) := forLinks_calm fun l u => .of_ap (by simp) (by simp)
  refine acrLaw_of_entered (s := s) (f := fun b => { b with device := .failed }) ?_ rfl (by simp) law
  unfold enterFailed
  dsimp only
  cases down <;> simp only [Bool.false_eq_true, if_true, if_false]
  · exact ((dropped_calm _).trans (halted _)).trans (raiseNotice_calm ..)
  · exact (((dropped_calm _).trans (taken _)).trans (raiseNotice_calm ..)).trans (noticed _)

theorem completeFunctionReset_law (s : State) : (completeFunctionReset s).acrLaw :=
  acrLaw_of_empty ⟨rfl, by simp [completeFunctionReset, State.reset, ApBlock.reset], rfl, rfl⟩

theorem escalate_law {s : State} (h : sound s) : (escalate s).acrLaw := by
  have failed : sound (s.onHp fun b => { b with device := .failed }) := sound_of_ap rfl rfl h
  have told : Calm (s.onHp fun b => { b with device := .failed }) (escalate s) := raiseNotice_calm ..
  exact acrLaw_of_sound (by rw [device_of_fixed told.fixed]; simp) (sound_of_calm told failed)

theorem abortOutstanding_sound {s : State} (h : sound s) : sound (abortOutstanding s.ap.outstanding s) := by
  rcases h with empty | ⟨tail, consumer, room⟩
  · obtain ⟨owed, idle, tail, consumer⟩ := empty
    rw [owed]
    exact .inl ⟨rfl, idle, tail, consumer⟩
  · refine .inr (abortOutstanding_fit _ ⟨tail, consumer, ?_⟩)
    unfold acrReserved at room
    omega

theorem returnToRunning_law {s : State} (h : sound s) : (returnToRunning s).acrLaw := by
  have runs : sound (s.onHp fun b => { b with device := .running }) := sound_of_ap rfl rfl h
  have aborted := abortOutstanding_sound runs
  have told : ∀ n u, Calm u ((raiseNotice n u).onEc fun b => { b with fatalCause := none }) := fun n u =>
    .of_ap (by simp) (by simp)
  unfold returnToRunning
  refine startCommandRead_law (acrLaw_of_sound ?_ (sound_of_calm (told _ _) aborted))
  rw [device_of_fixed (told _ _).fixed]
  simp

theorem completeSelfReset_law {s : State} (law : s.acrLaw) : (completeSelfReset s).acrLaw := by
  have cleared : sound (resetDatapath s) := sound_of_ap rfl rfl (sound_of_law law)
  unfold completeSelfReset
  dsimp only
  split
  · exact escalate_law cleared
  · exact returnToRunning_law cleared

theorem completeReset_law {s : State} (law : s.acrLaw) : (completeReset s).acrLaw := by
  unfold completeReset
  refine acrLaw_ite (fun _ => ?_) law
  split
  · exact completeSelfReset_law law
  · exact completeFunctionReset_law s
  all_goals exact law

theorem enterSelfResetting_law {s : State} (law : s.acrLaw) : (enterSelfResetting s).acrLaw := by
  have quieted : ∀ u, Calm u (forLinks selfResetLink u) := forLinks_calm fun l u => .of_ap (by simp) (by simp)
  unfold enterSelfResetting
  dsimp only
  refine completeReset_law (acrLaw_of_entered (s := s) (f := fun b => { b with device := .selfResetting }) ?_ rfl
    (by simp) law)
  exact (dropped_calm _).trans (quieted _)

theorem enterResetting_law {s : State} (law : s.acrLaw) : (enterResetting s).acrLaw := by
  have quieted : ∀ silent u, Calm u (forLinks (resetLink silent) u) := fun silent =>
    forLinks_calm fun l u => .of_ap (by simp) (by simp)
  unfold enterResetting
  dsimp only
  refine acrLaw_of_entered (s := s) (f := fun b => { b with device := .resetting, run := false }) ?_ rfl (by simp) law
  exact (dropped_calm _).trans (quieted _ _)

theorem startFunctionReset_law {s : State} (law : s.acrLaw) : (startFunctionReset s).acrLaw := by
  unfold startFunctionReset
  split
  · exact law
  · exact completeReset_law (enterResetting_law law)

theorem startHostLinkReset_law {s : State} (law : s.acrLaw) : (startHostLinkReset s).acrLaw := by
  unfold startHostLinkReset
  split
  · exact law
  · exact completeReset_law (enterResetting_law (acrLaw_of_calm (.of_ap (by simp) (by simp)) law))

theorem contain_law (cause : FatalCause) {s : State} (law : s.acrLaw) : (contain cause s).acrLaw := by
  have stored : (s.onEc fun b => { b with fatalCause := some cause }).acrLaw :=
    acrLaw_of_calm (.of_ap (by simp) (by simp)) law
  unfold contain
  dsimp only
  split
  · exact enterFailed_law _ stored
  · exact enterFailed_law _ stored
  · exact enterSelfResetting_law stored

theorem discardSlotRead_law (i : Nat) {s : State} (law : s.acrLaw) : (discardSlotRead i s).acrLaw :=
  completeReset_law (acrLaw_of_calm (.of_ap (by simp) (by simp)) law)

/-- The AP's read ends without a command: the slot it promised is free again. -/
theorem endRead_law {s : State} (x : ApState) (idle : x ≠ .reading) (law : s.acrLaw) :
    (s.onAp fun b => { b with state := x }).acrLaw := by
  have empty : s.acrEmpty → (s.onAp fun b => { b with state := x }).acrEmpty := fun ⟨owed, _, tail, consumer⟩ =>
    ⟨owed, idle, tail, consumer⟩
  obtain ⟨stopped, sound⟩ := (acrLaw_iff s).mp law
  refine (acrLaw_iff _).mpr ⟨fun halted => empty (stopped halted), sound.imp empty fun ⟨tail, consumer, room⟩ => ?_⟩
  refine ⟨tail, consumer, ?_⟩
  unfold acrUnconsumed acrReserved at room ⊢
  show ringDistance s.hp.acrSize.toNat s.ap.acrTail s.ap.acrConsumer +
    (s.ap.outstanding.length + if x = .reading then 1 else 0) + 0 ≤ s.hp.acrSize.toNat - 1
  rw [if_neg idle]
  omega

theorem discardAdminRead_law {s : State} (law : s.acrLaw) : (discardAdminRead s).acrLaw := by
  refine completeReset_law ?_
  by_cases reading : s.ap.state = .reading
  · have idle : (s.onAp fun b => { b with state := if b.state = .reading then .idle else b.state }) =
        s.onAp fun b => { b with state := .idle } := by simp [State.onAp, reading]
    exact idle ▸ endRead_law .idle (by simp) law
  · have same : (s.onAp fun b => { b with state := if b.state = .reading then .idle else b.state }) = s := by
      simp [State.onAp, reading]
    exact same.symm ▸ law

/-! ### The window -/

theorem storeMode_law (w : Word32) {s : State} (law : s.acrLaw) : (storeMode w s).acrLaw := by
  have stored : (match controlMode w with | none => s | some m => s.onHp fun b => { b with mode := m }).acrLaw := by
    split
    · exact law
    · exact acrLaw_of_ap (by simp) (by simp) (by simp) law
  unfold storeMode
  split
  case h_4 => exact law
  case h_5 => exact law
  all_goals exact stored

theorem startDevice_law {s : State} (law : s.acrLaw) : (startDevice s).acrLaw := by
  unfold startDevice
  refine acrLaw_ite (fun _ => ?_) law
  split
  · have drained : ∀ u, Calm u (drainBacklog u) := fun u => .of_ap (by simp) (by simp)
    exact startCommandRead_law (acrLaw_of_entered (s := s)
      (f := fun b => { b with device := .running, run := true, configError := false }) (drained _) rfl (by simp) law)
  · exact acrLaw_of_ap (by simp) (by simp) (by simp) law

theorem writeControl_law (w : Word32) {s : State} (law : s.acrLaw) : (writeControl w s).acrLaw := by
  unfold writeControl
  split
  · exact law
  · split
    · exact startFunctionReset_law law
    · split
      · exact startDevice_law (storeMode_law w law)
      · exact storeMode_law w law

theorem writeSystemRegister_law (r : SystemRingRegister) (v : Word32) {s : State} (law : s.acrLaw) :
    (writeSystemRegister r v s).acrLaw := by
  unfold writeSystemRegister
  refine acrLaw_ite (fun stopped => ?_) law
  exact acrLaw_of_empty (acrEmpty_of_ap (s := s) (by simp) (((acrLaw_iff s).mp law).1 stopped))

theorem writeAsrPort_law (v : Word32) {s : State} (law : s.acrLaw) : (writeAsrPort v s).acrLaw := by
  have taken : (s.onAp fun b => { b with asrProducer := v.toNat }).acrLaw := law
  unfold writeAsrPort
  split
  case h_1 | h_2 =>
    split
    · exact acrLaw_of_calm (.of_ap (by simp) (by simp)) law
    · exact startCommandRead_law taken
  all_goals exact law

/-- A consumer index taken leaves no more completions unconsumed (R146). -/
theorem consume_law {v : Nat} {s : State} (small : v < s.hp.acrSize.toNat)
    (within : consumerInRange s.hp.acrSize.toNat s.ap.acrTail s.ap.acrConsumer v = true) (law : s.acrLaw) :
    (s.onAp fun b => { b with acrConsumer := v }).acrLaw := by
  have near : ringDistance s.hp.acrSize.toNat v s.ap.acrConsumer ≤
      ringDistance s.hp.acrSize.toNat s.ap.acrTail s.ap.acrConsumer := of_decide_eq_true within
  have empty : s.acrEmpty → (s.onAp fun b => { b with acrConsumer := v }).acrEmpty := fun ⟨owed, idle, tail, consumer⟩ => by
    refine ⟨owed, idle, tail, ?_⟩
    rw [tail, consumer, ringDistance_cases small (by omega), ringDistance_cases (by omega) (by omega)] at near
    simpa using near
  obtain ⟨stopped, sound⟩ := (acrLaw_iff s).mp law
  refine (acrLaw_iff _).mpr ⟨fun halted => empty (stopped halted), sound.imp empty fun ⟨tail, consumer, room⟩ => ?_⟩
  have fewer := ringDistance_consume tail consumer small near
  refine ⟨tail, small, ?_⟩
  unfold acrUnconsumed at room ⊢
  show ringDistance s.hp.acrSize.toNat s.ap.acrTail v + acrReserved s + 0 ≤ s.hp.acrSize.toNat - 1
  omega

theorem writeAcrPort_law (v : Word32) {s : State} (law : s.acrLaw) : (writeAcrPort v s).acrLaw := by
  have cleared : (clearLatch s).acrLaw := acrLaw_of_calm (.of_ap (by simp) (by simp)) law
  have refused : (refuseIndex 49 v (clearLatch s)).acrLaw := acrLaw_of_calm (.of_ap (by simp) (by simp)) cleared
  unfold writeAcrPort
  split
  case h_1 | h_2 =>
    dsimp only
    split
    · exact refused
    · next small =>
      split
      · next within => exact startCommandRead_law (consume_law (by omega) within cleared)
      · exact refused
  all_goals exact law

theorem writeWindow_law (o w : Nat) (v : Word32) {s : State} (law : s.acrLaw) : (writeWindow o w v s).acrLaw := by
  have port : ∀ n, (writePort n v s).acrLaw := fun n => by
    unfold writePort
    split
    · exact acrLaw_of_calm (.of_ap (by simp) (by simp)) law
    · split
      · exact writeAsrPort_law v law
      · split
        · exact acrLaw_of_calm (.of_ap (by simp) (by simp)) law
        · split
          · exact writeAcrPort_law v law
          · exact acrLaw_of_calm (.of_ap (by simp) (by simp)) law
  unfold writeWindow
  split
  · exact law
  · split
    · exact writeControl_law v law
    · split
      · exact writeSystemRegister_law _ v law
      · split
        · exact port _
        · exact law

/-! ### Host reads -/

theorem freeRead_law (i : Nat) {s : State} (law : s.acrLaw) : (freeRead i s).acrLaw :=
  acrLaw_of_calm (.of_ap (by simp) (by simp)) law

theorem failSlotRead_law (i : Nat) {s : State} (law : s.acrLaw) : (failSlotRead i s).acrLaw := by
  have freed := freeRead_law i law
  have ended : ∀ r ok u, Calm u (endFetch i r ok u) := fun r ok u => .of_ap (by simp) (by simp)
  unfold failSlotRead
  dsimp only
  split
  · split
    · exact acrLaw_of_calm (failDescriptor_calm ..) freed
    · exact acrLaw_of_calm (ended ..) freed
    · exact freed
  · exact discardSlotRead_law i freed

theorem failAdminRead_law {s : State} (law : s.acrLaw) : (failAdminRead s).acrLaw := by
  have freed := freeRead_law adminReadEntry law
  unfold failAdminRead
  dsimp only
  split
  · refine acrLaw_ite (fun _ => ?_) freed
    exact acrLaw_of_calm (raiseNotice_calm ..) (endRead_law .error (by simp) freed)
  · exact discardAdminRead_law freed

/-! ### The admin commands -/

/-- A command takes the one slot that its read had promised. -/
def spends (s t : State) : Prop := t.hp.fixed = s.hp.fixed ∧ (acrFit 1 s → acrFit 0 t)

theorem spends_complete (tag : BitVec 16) (k : Nat) (st : AdminStatus) (x : Nat) (s : State) :
    spends s (adminComplete tag k st x s) := ⟨by simp, adminComplete_fit tag k st x⟩

theorem spends_append (op : LongOperation) (tag : BitVec 16) (s : State) : spends s (appendOutstanding op tag s) :=
  ⟨by simp, appendOutstanding_fit op tag⟩

theorem spends_before {s u t : State} (calm : Calm s u) (h : spends u t) : spends s t :=
  ⟨h.1.trans calm.fixed, fun fit => h.2 (calm.fit 1 fit)⟩

theorem spends_after {s u t : State} (h : spends s u) (calm : Calm u t) : spends s t :=
  ⟨calm.fixed.trans h.1, fun fit => calm.fit 0 (h.2 fit)⟩

theorem takeCommand_law {effect : State → State} (each : ∀ u, spends u (effect u)) {s : State} (law : s.acrLaw) :
    (takeCommand effect s).acrLaw := by
  have freed := freeRead_law adminReadEntry law
  unfold takeCommand
  refine acrLaw_ite (fun _ => ?_) law
  dsimp only
  split
  case isFalse => exact discardAdminRead_law freed
  case isTrue runs =>
    refine acrLaw_ite (fun reading => ?_) freed
    obtain ⟨fixed, spent⟩ := each ((freeRead adminReadEntry s).onAp fun b => { b with
      state := .idle, asrHead := advance (freeRead adminReadEntry s).hp.asrSize.toNat b.asrHead })
    refine startCommandRead_law (acrLaw_of_sound ?_ (.inr (spent ?_)))
    · rw [device_of_fixed fixed]
      exact fun stopped => absurd (runs.symm.trans stopped) (by simp)
    · rcases sound_of_law freed with ⟨-, idle, -⟩ | ⟨tail, consumer, room⟩
      · exact absurd reading idle
      · refine ⟨tail, consumer, ?_⟩
        unfold acrUnconsumed acrReserved at room
        rw [if_pos reading] at room
        exact room

theorem shortCommand_spends {tag : BitVec 16} {kind : Nat} {status : AdminStatus} {effect : State → State} {s : State}
    (calm : Calm s (effect s)) : spends s (shortCommand tag kind status effect s) :=
  spends_before (.ite fun _ => calm) (spends_complete ..)

theorem beginDeletion_spends (tag : BitVec 16) (n : Nat) (s : State) : spends s (beginDeletion tag n s) := by
  have marked : Calm s (s.setSq n { s.sq n with state := .deleting }) := .of_ap (by simp) (by simp)
  have completed : ∀ (o : Option HeldCopy) u, Calm u (match o with
      | none => u
      | some h => completeUnadmitted n h.descriptor.tag .ringDeleted .none (clearHeld n u)) := fun o u => by
    cases o with
    | none => exact .refl u
    | some h => exact .of_ap (by simp) (by simp)
  unfold beginDeletion
  dsimp only
  refine spends_after ?_ (endDeletion_calm ..)
  generalize s.setSq n { s.sq n with state := .deleting } = u at marked ⊢
  exact spends_before (marked.trans (completed (u.sq n).held u)) (spends_append ..)

theorem flushRecord_calm (f r : Nat) (a : Option Nat) (s : State) : Calm s (flushRecord f (a, s) r).2 := by
  have leaves : ∀ g, Calm s (leaveQueue r (s.setFrame r g)) := fun g => .of_ap (by simp) (by simp)
  have retires : ∀ g, Calm s (retireRecord r (leaveQueue r (s.setFrame r g))) := fun g =>
    (leaves g).trans (.of_ap (by simp) (by simp))
  unfold flushRecord
  dsimp only
  generalize { s.frame r with cause := firstCause (s.frame r).cause (some .flushed) } = flushed
  split
  case h_1 =>
    split
    · have retired := retires flushed
      generalize retireRecord r (leaveQueue r (s.setFrame r flushed)) = u at retired ⊢
      split
      · exact retired
      · exact retired.trans (endDeletion_calm ..)
    · exact leaves _
  case h_2 => exact leaves _
  all_goals exact .refl s

theorem flushRecord_foldl_calm (f : Nat) (rs : List Nat) (a : Option Nat) (s : State) :
    Calm s (rs.foldl (flushRecord f) (a, s)).2 := by
  induction rs generalizing a s with
  | nil => exact .refl s
  | cons r rs ih => exact (flushRecord_calm f r a s).trans (ih _ _)

theorem beginFlush_spends (tag : BitVec 16) (f : Nat) (s : State) : spends s (beginFlush tag f s) := by
  have begun : Calm s (s.setFlow f { s.flow f with state := .flushing, flushed := 0 }) := .of_ap (by simp) (by simp)
  have held : ∀ (ns : List Nat) u, Calm u (ns.foldl flushHeld u) := fun ns u => .of_ap (by simp) (by simp)
  have told : ∀ (p : Prop) [Decidable p] (u : State) (l : Nat), Calm u (if p then u else consider l u) := by
    intro p _ u l
    split
    · exact .refl u
    · exact consider_calm l u
  have completed : ∀ u, spends u (if (u.flow f).held = 0 then
      adminComplete tag 0x13 .ok ((u.flow f).flushed % 2 ^ 16) (u.setFlow f { u.flow f with state := .disabled })
      else appendOutstanding (.flushFlow f) tag u) := fun u => by
    split
    · exact spends_before (.of_ap (by simp) (by simp)) (spends_complete ..)
    · exact spends_append ..
  have ended : ∀ (o : Option Nat) u, Calm u (match o with | none => u | some n => endDeletion n u) := fun o u => by
    cases o with
    | none => exact .refl u
    | some n => exact endDeletion_calm n u
  exact spends_after (spends_before (begun.trans ((held _ _).trans ((flushRecord_foldl_calm f _ none _).trans
    (told _ _ _)))) (completed _)) (ended _ _)

theorem flushFlow_spends (tag : BitVec 16) (f : Nat) (s : State) : spends s (flushFlow tag f s) := by
  have checked : ∀ rs u, Calm u (checkRecords rs u).2 := fun rs u => .of_ap (by simp) (by simp)
  have walked : spends s (match checkRecords (s.flow f).queue s with
      | (true, s1) => beginFlush tag f s1
      | (false, s1) => adminComplete tag 0x13 .aborted 0 s1) := by
    split
    · next s1 answer => exact spends_before ((checked _ _).of_answer answer) (beginFlush_spends tag f s1)
    · next s1 answer => exact spends_before ((checked _ _).of_answer answer) (spends_complete ..)
  unfold flushFlow
  split
  · exact spends_complete ..
  · split
    case h_1 => exact spends_complete ..
    case h_2 => exact spends_complete ..
    all_goals exact walked

theorem enableLink_spends (tag : BitVec 16) (l timeout : Nat) (s : State) : spends s (enableLink tag l timeout s) := by
  have begun : spends s (beginEnable tag l timeout s) := spends_before (.of_ap (by simp) (by simp)) (spends_append ..)
  unfold enableLink
  split
  · exact spends_complete ..
  · split
    case h_1 | h_2 => exact begun
    all_goals exact spends_complete ..

theorem disableLink_spends (tag : BitVec 16) (l : Nat) (s : State) : spends s (disableLink tag l s) := by
  have cleared : ∀ u, Calm s u → spends s (adminComplete tag 0x21 .ok 0 (clearCredit l .disabled u)) := fun u before =>
    spends_before (before.trans (clearCredit_calm ..)) (spends_complete ..)
  have awaiting : spends s (disableAwaiting tag l s) := by
    have timers : Calm s ((s.setLink l { s.link l with offerTimer := none, linkUpTimer := none }).send l (.down l)) :=
      .of_ap (by simp) (by simp)
    exact spends_before ((timers.trans (clearCredit_calm ..)).trans (endLinkCommand_calm ..)) (spends_complete ..)
  have active : spends s (disableActive tag l s) := by
    unfold disableActive
    split
    · exact spends_after (cleared _ (.of_ap (by simp) (by simp))) (applyAtDeparture_calm ..)
    · exact spends_after (spends_before (setLink_calm ..) (spends_append ..)) (applyAtDeparture_calm ..)
  unfold disableLink
  split
  · exact spends_complete ..
  · split
    case h_1 => exact spends_complete ..
    case h_2 => exact awaiting
    case h_3 => exact active
    case h_4 => exact spends_complete ..
    case h_5 => exact cleared s (.refl s)

theorem activateCalendar_spends (tag : BitVec 16) (l : Nat) (s : State) : spends s (activateCalendar tag l s) := by
  have pending : spends s (appendOutstanding (.activateCalendar l) tag
      (s.setSched l { s.sched l with activation := true })) := spends_before (.of_ap (by simp) (by simp)) (spends_append ..)
  unfold activateCalendar
  split
  · exact spends_complete ..
  · split
    · exact spends_complete ..
    · unfold beginActivation
      dsimp only
      split
      · exact spends_after pending (consider_calm ..)
      · exact spends_after pending (applyActivation_calm ..)

/-! ### The sixty commands -/

theorem law_of_next {t u : State} {o : Outcome State Fault Refusal} (law : u.acrLaw) (same : o = .next u)
    (next : o = .next t) : t.acrLaw := by
  obtain rfl : u = t := by simpa [same] using next
  exact law

/-- A read's return, where it is not discarded. -/
theorem slotRead_law (i : Nat) (data : BitVec 512) {s : State} (law : s.acrLaw) : State.acrLaw
    (match s.slot i with
    | .descRead n k =>
      if awaitsResponse s i then
        if s.hp.device = .running then returnDescriptor i n k data (freeRead i s) else discardSlotRead i (freeRead i s)
      else s
    | .idle | .payload .. => s) := by
  have freed := freeRead_law i law
  split
  case h_1 n k slot =>
    refine acrLaw_ite (fun _ => ?_) law
    split
    · exact acrLaw_of_calm (returnDescriptor_calm ..) freed
    · exact discardSlotRead_law i freed
  all_goals exact law

theorem payloadRead_law (i : Nat) (data : List Byte) {s : State} (law : s.acrLaw) : State.acrLaw
    (match s.slot i, s.read i with
    | .payload n r gs c o, some e =>
      if e.cutOff = false ∧ data.length = e.length then
        if s.hp.device = .running then returnPayload i n r gs c o data (freeRead i s)
        else discardSlotRead i (freeRead i s)
      else s
    | _, _ => s) := by
  have freed := freeRead_law i law
  split
  case h_1 n r gs c o e slot _ =>
    refine acrLaw_ite (fun _ => ?_) law
    split
    · exact acrLaw_of_calm (returnPayload_calm ..) freed
    · exact discardSlotRead_law i freed
  case h_2 => exact law

theorem retry_calm (s : State) : Calm s
    (if s.hp.device = .running then
      match idleSlot s, retryClaim s with
      | some i, some e =>
        match (s.sq e.ring).held with
        | some h => retryHeld i e.ring h s
        | none => s
      | _, _ => s
    else s) := by
  refine .ite fun _ => ?_
  split
  case h_1 i e _ _ =>
    split
    case h_1 h _ => exact retryHeld_calm i e.ring h s
    case h_2 => exact .refl s
  case h_2 => exact .refl s

theorem fetchSlotGrant_calm (s : State) : Calm s
    (if s.hp.device = .running ∧ retryClaim s = none then
      match idleSlot s, readClaim s with
      | some i, some n => grantRead i n s
      | _, _ => s
    else s) := by
  refine .ite fun _ => ?_
  split
  case h_1 => exact .of_ap (by simp) (by simp)
  case h_2 => exact .refl s

theorem cellSent_calm (l : Nat) (s : State) : Calm s
    (match (s.link l).serializer with
    | none => s
    | some z => if s.hp.device = .running ∧ z.state = .transmitting ∧ z.stopped = false then endCell l z s else s) := by
  split
  case h_1 => exact .refl s
  case h_2 z _ => exact .ite fun _ => endCell_calm l z s

theorem abortOrder_calm (l r : Nat) (s : State) : Calm s
    (if s.lu.aborts.contains (l, r) then
      let s1 := s.onLu fun b => { b with aborts := b.aborts.erase (l, r) }
      match (s1.link l).serializer with
      | none => s1
      | some z =>
        if s1.hp.device = .running ∧ z.record = r ∧ z.stopped = false then abortEvent l .fetchAborted s1 else s1
    else s) := by
  refine .ite fun _ => ?_
  have taken : Calm s (s.onLu fun b => { b with aborts := b.aborts.erase (l, r) }) := .of_ap (by simp) (by simp)
  refine taken.trans ?_
  dsimp only
  split
  case h_1 => exact .refl _
  case h_2 z _ => exact .ite fun _ => abortEvent_calm l _ _

theorem takeReport_calm (r : EccReport) (s : State) : Calm s (takeReport r s) := .of_ap (by simp) (by simp)

theorem countCorrection_calm (m : ProtectedMemory) (s : State) : Calm s (countCorrection m s) := by
  have counted : ∀ n, Calm s (setCorrectableCount m n s) := fun n => by
    unfold setCorrectableCount
    exact .of_ap (by simp) (by simp)
  unfold countCorrection
  dsimp only
  split
  · exact (counted 0).trans (raiseNotice_calm ..)
  · exact counted _

theorem exec_acrLaw {c : Instr} {s t : State} (next : exec c s = .next t) (law : s.acrLaw) : t.acrLaw := by
  have calm : ∀ {u}, Calm s u → u.acrLaw := fun h => acrLaw_of_calm h law
  have struck : ∀ us, (strike us s).acrLaw := fun us => calm (.of_ap (by simp) (by simp))
  have short : ∀ {tag kind} {status : State → AdminStatus} {effect : State → State → State},
      (∀ u, Calm u (effect u u)) → ∀ u, spends u (shortCommand tag kind (status u) (effect u) u) := fun calm u =>
    shortCommand_spends (calm u)
  cases c with
  | powerOn => exact law_of_next (acrLaw_of_empty (s := { State.reset with pending := s.pending })
      ⟨rfl, by simp [State.reset, ApBlock.reset], rfl, rfl⟩) rfl next
  | hostLinkReset => exact law_of_next (startHostLinkReset_law law) rfl next
  | functionReset w => exact law_of_next (writeControl_law w law) rfl next
  | run w => exact law_of_next (writeControl_law w law) rfl next
  | containmentModeWrite w => exact law_of_next (writeControl_law w law) rfl next
  | systemRingRegisterWrite r v => exact law_of_next (writeSystemRegister_law r v law) rfl next
  | registerWrite o w v => exact law_of_next (writeWindow_law o w v law) rfl next
  | sqProducerIndexWrite n v => exact law_of_next (calm (.of_ap (by simp) (by simp))) rfl next
  | asrProducerIndexWrite v => exact law_of_next (writeAsrPort_law v law) rfl next
  | cqConsumerIndexWrite n v => exact law_of_next (calm (.of_ap (by simp) (by simp))) rfl next
  | acrConsumerIndexWrite v => exact law_of_next (writeAcrPort_law v law) rfl next
  | nrConsumerIndexWrite v => exact law_of_next (calm (.of_ap (by simp) (by simp))) rfl next
  | fetchSlotGrant => exact law_of_next (calm (fetchSlotGrant_calm s)) rfl next
  | retry us => exact law_of_next (acrLaw_of_calm (retry_calm _) (struck us)) rfl next
  | descriptorReadReturn i x us => exact law_of_next (slotRead_law i x (struck us)) rfl next
  | descriptorReadError i =>
    refine law_of_next ?_ rfl next
    split
    case h_1 => exact acrLaw_ite (fun _ => failSlotRead_law i law) law
    all_goals exact law
  | payloadReadReturn i xs us => exact law_of_next (payloadRead_law i xs (struck us)) rfl next
  | payloadReadError i =>
    refine law_of_next ?_ rfl next
    split
    case h_1 => exact acrLaw_ite (fun _ => failSlotRead_law i law) law
    all_goals exact law
  | hostReadTimeout e =>
    refine law_of_next (acrLaw_ite (fun _ => ?_) law) rfl next
    split
    · exact failSlotRead_law e law
    · exact failAdminRead_law law
  | strayReadResponse e => exact law_of_next law rfl next
  | fetchEnd r us => exact law_of_next (acrLaw_of_calm (fetchEndEvent_calm r _) (struck us)) rfl next
  | commandReadStart => exact law_of_next (startCommandRead_law law) rfl next
  | commandReadError => exact law_of_next (acrLaw_ite (fun _ => failAdminRead_law law) law) rfl next
  | createSq tag ring cq size limit base =>
    exact law_of_next (takeCommand_law (short fun u => .of_ap (by simp) (by simp)) law) rfl next
  | deleteSq tag ring =>
    refine law_of_next (takeCommand_law (fun u => ?_) law) rfl next
    split
    · exact spends_complete ..
    · split
      case h_1 => exact spends_complete ..
      case h_2 => exact spends_complete ..
      all_goals exact beginDeletion_spends ..
  | createCq tag ring vector threshold size holdoff base =>
    exact law_of_next (takeCommand_law (short fun u => .of_ap (by simp) (by simp)) law) rfl next
  | deleteCq tag ring => exact law_of_next (takeCommand_law (short fun u => .of_ap (by simp) (by simp)) law) rfl next
  | configureFlow tag flow link cls cap policy threshold =>
    exact law_of_next (takeCommand_law (short fun u => .of_ap (by simp) (by simp)) law) rfl next
  | enableFlow tag flow => exact law_of_next (takeCommand_law (short fun u => .of_ap (by simp) (by simp)) law) rfl next
  | disableFlow tag flow => exact law_of_next (takeCommand_law (short fun u => .of_ap (by simp) (by simp)) law) rfl next
  | flushFlow tag flow => exact law_of_next (takeCommand_law (fun u => flushFlow_spends tag _ u) law) rfl next
  | queryFlow tag flow =>
    refine law_of_next (takeCommand_law (fun u => ?_) law) rfl next
    split
    · exact spends_complete ..
    · exact spends_complete ..
  | enableLink tag l k => exact law_of_next (takeCommand_law (fun u => enableLink_spends tag _ _ u) law) rfl next
  | disableLink tag l => exact law_of_next (takeCommand_law (fun u => disableLink_spends tag _ u) law) rfl next
  | setClassMap tag l mask lanes =>
    exact law_of_next (takeCommand_law (short fun u => .of_ap (by simp) (by simp)) law) rfl next
  | queryLink tag l =>
    refine law_of_next (takeCommand_law (fun u => ?_) law) rfl next
    split
    · exact spends_complete ..
    · exact spends_complete ..
  | writeCalendar tag l start count blank entries =>
    exact law_of_next (takeCommand_law (short fun u => .of_ap (by simp) (by simp)) law) rfl next
  | activateCalendar tag l => exact law_of_next (takeCommand_law (fun u => activateCalendar_spends tag _ u) law) rfl next
  | setErrorPolicy tag threshold =>
    exact law_of_next (takeCommand_law (short fun u => .of_ap (by simp) (by simp)) law) rfl next
  | queryPool tag => exact law_of_next (takeCommand_law (fun u => spends_complete ..) law) rfl next
  | unknownCommand tag kind => exact law_of_next (takeCommand_law (fun u => spends_complete ..) law) rfl next
  | ready l a b c d =>
    refine law_of_next ?_ rfl next
    split
    · exact calm (bringUp_calm ..)
    · exact calm (protocolError_calm ..)
  | credit l lane n =>
    refine law_of_next ?_ rfl next
    split
    · exact acrLaw_ite (fun _ => calm (takeCredit_calm ..)) law
    · exact calm (protocolError_calm ..)
  | down l x =>
    refine law_of_next (acrLaw_ite (fun _ => ?_) law) rfl next
    split
    · exact calm (failLinkEvent_calm ..)
    · exact calm (downInDrain_calm ..)
    all_goals exact law
  | malformedMessage l => exact law_of_next (calm (protocolError_calm ..)) rfl next
  | offerTimerExpiry l => exact law_of_next (calm (.ite fun _ => .of_ap (by simp) (by simp))) rfl next
  | linkUpTimerExpiry l =>
    exact law_of_next (calm (.ite fun _ => .trans (.of_ap (by simp) (by simp)) (endLinkCommand_calm ..))) rfl next
  | cellSent l us => exact law_of_next (acrLaw_of_calm (cellSent_calm l _) (struck us)) rfl next
  | underrunTimerExpiry l =>
    refine law_of_next ?_ rfl next
    split
    case h_1 => exact law
    case h_2 z _ => exact calm (.ite fun _ => abortEvent_calm ..)
  | abortOrder l r => exact law_of_next (calm (abortOrder_calm l r s)) rfl next
  | holdoffTimerExpiry n => exact law_of_next (calm (.ite fun _ => .of_ap (by simp) (by simp))) rfl next
  | correctionReport m =>
    have taken := acrLaw_of_calm (takeReport_calm (.correction m) s) law
    refine law_of_next ?_ rfl next
    split
    case h_1 => exact acrLaw_of_calm (countCorrection_calm ..) taken
    case h_2 => exact acrLaw_of_calm (countCorrection_calm ..) taken
    all_goals exact taken
  | cellDataErrorReport l cell =>
    have taken := acrLaw_of_calm (takeReport_calm (.cellData l cell) s) law
    refine law_of_next ?_ rfl next
    split
    case h_1 => exact acrLaw_of_calm (raiseNotice_calm ..) taken
    case h_2 => exact acrLaw_of_calm (raiseNotice_calm ..) taken
    all_goals exact taken
  | fatalReport cause =>
    have taken := acrLaw_of_calm (takeReport_calm (.fatal cause) s) law
    have noted : ∀ f, State.acrLaw ((takeReport (.fatal cause) s).onEc f) := fun f =>
      acrLaw_of_calm (.of_ap (by simp) (by simp)) taken
    refine law_of_next ?_ rfl next
    split
    case h_1 => exact contain_law cause taken
    case h_2 => exact noted _
    case h_3 => exact noted _
    all_goals exact taken
  | selfResetCompletion => exact law_of_next (acrLaw_ite (fun _ => completeSelfReset_law law) law) rfl next
  | functionResetCompletion => exact law_of_next (acrLaw_ite (fun _ => completeFunctionReset_law s) law) rfl next
  | flushEnd f => exact law_of_next (calm (.ite fun _ => endFlush_calm f s)) rfl next
  | deletionEnd n => exact law_of_next (calm (.ite fun _ => endDeletion_calm n s)) rfl next
  | drainEnd l => exact law_of_next (calm (.ite fun _ => endDrain_calm l s)) rfl next
  | activationApply l => exact law_of_next (calm (.ite fun _ => applyActivation_calm l s)) rfl next

/-- Settles O58: a slot is promised only where one is free, and each completion is written into a slot promised to it. -/
theorem acrLawKept : Obligations.AcrLawKept := fun _ _ law next =>
  step_keeps (L := State.acrLaw) (fun _ _ law => law) (fun _ _ _ next => exec_acrLaw next) next law

end Sys2Proof.Proofs.AdminSteps

/-! A device that stays in FAILED keeps its datapath and sends nothing but notices (R151, R159, R160, R163). -/

namespace Sys2Proof.Proofs.FailedDevice

open Sys2Proof Sys2Proof.Machine Host Sys2Proof.Proofs.Steps

/-- Every field that FAILED keeps, with the others at fixed values. -/
def still (s : State) : State :=
  { s with
    hp := { s.hp.fixed with mode := .halt },
    bm := { s.bm with cellEcc := [], linkEcc := [], frameEcc := [], fetchEnds := [] },
    dfu := { s.dfu with slots := [] },
    lu := { s.lu with aborts := [] },
    ap := { s.ap with state := .idle },
    ec := { s.ec.fixed with cellDataCount := 0, linkTableCount := 0, frameTableCount := 0, multiple := false } }

/-- The traffic of the notice unit: a notice record, or its message. -/
def ofNotice (m : HostTraffic) : Prop :=
  m = .interrupt 0 ∨ ∃ a n count phase, m = .write16 a (noticeRecord n count phase)

/-- What a step in FAILED may do: free a read, a slot or the AP, set MULTIPLE, and send notices. -/
structure Hushed (s t : State) : Prop where
  same : still t = still s
  slot : ∀ i, t.slot i = s.slot i ∨ t.slot i = .idle
  read : ∀ i, t.read i = s.read i ∨ t.read i = none
  ap : t.ap.state = s.ap.state ∨ t.ap.state = .idle
  multiple : s.ec.multiple = true → t.ec.multiple = true
  out : ∃ x, t.hp.out = s.hp.out ++ x ∧ ∀ m ∈ x, ofNotice m

/-- One reading kept or cleared, over two steps. -/
theorem kept_or_cleared {α : Type} {a b c z : α} (h : b = a ∨ b = z) (g : c = b ∨ c = z) : c = a ∨ c = z := by
  rcases g with rfl | g
  · exact h
  · exact .inr g

theorem Hushed.refl (s : State) : Hushed s s :=
  ⟨rfl, fun _ => .inl rfl, fun _ => .inl rfl, .inl rfl, id, [], by simp⟩

theorem Hushed.trans {s t u : State} (h : Hushed s t) (g : Hushed t u) : Hushed s u := by
  obtain ⟨x, sent, notices⟩ := h.out
  obtain ⟨y, sentLater, noticesLater⟩ := g.out
  refine ⟨g.same.trans h.same, fun i => kept_or_cleared (h.slot i) (g.slot i),
    fun i => kept_or_cleared (h.read i) (g.read i), kept_or_cleared h.ap g.ap, fun set => g.multiple (h.multiple set),
    x ++ y, by rw [sentLater, sent, List.append_assoc], fun m among => ?_⟩
  exact (List.mem_append.mp among).elim (notices m) (noticesLater m)

theorem Hushed.ite {p : Prop} [Decidable p] {s t u : State} (yes : p → Hushed s t) (no : ¬ p → Hushed s u) :
    Hushed s (if p then t else u) := by
  split
  · exact yes ‹_›
  · exact no ‹_›

/-- A state with the same HP, DFU and AP, and MULTIPLE as it was. -/
theorem Hushed.of_still {s t : State} (same : still t = still s) (hp : t.hp.reads = s.hp.reads)
    (out : t.hp.out = s.hp.out) (dfu : t.dfu = s.dfu) (ap : t.ap = s.ap)
    (multiple : s.ec.multiple = true → t.ec.multiple = true) : Hushed s t :=
  ⟨same, fun _ => .inl (by rw [State.slot, State.slot, dfu]), fun _ => .inl (by rw [State.read, State.read, hp]),
    .inl (by rw [ap]), multiple, [], by simp [out], by simp⟩

theorem Hushed.device {s t : State} (h : Hushed s t) : t.hp.device = s.hp.device := by
  have same := congrArg (fun u : State => u.hp.device) h.same
  exact same

/-! ### Notices -/

theorem signalVector0_hushed (s : State) : Hushed s (signalVector0 s) := by
  unfold signalVector0
  split
  · exact .refl s
  · exact ⟨rfl, fun _ => .inl rfl, fun _ => .inl rfl, .inl rfl, id, [.interrupt 0], rfl, by simp [ofNotice]⟩

theorem clearLatch_hushed (s : State) : Hushed s (clearLatch s) :=
  .of_still rfl rfl rfl rfl rfl id

theorem onEc_hushed (s : State) {f : EcBlock → EcBlock} (same : (f s.ec).fixed = s.ec.fixed) : Hushed s (s.onEc f) :=
  .of_still (by simp [still, same]) rfl rfl rfl rfl
    fun set => by simpa [(EcBlock.fields_of_fixed same).2.2.2.2.2] using set

theorem writeNotice_hushed (n : Notice) (k : Nat) (s : State) : Hushed s (writeNotice n k s) := by
  have emitted : Hushed s (s.emit (.write16 (s.hp.nrBase.toNat + 16 * s.ec.nrTail) (noticeRecord n k s.ec.nrPhase))) :=
    ⟨rfl, fun _ => .inl rfl, fun _ => .inl rfl, .inl rfl, id, [_], rfl, fun m among => by
      obtain rfl := List.mem_singleton.mp among
      exact .inr ⟨_, _, _, _, rfl⟩⟩
  exact (emitted.trans (onEc_hushed _ (by simp))).trans (signalVector0_hushed _)

theorem postponeNotice_hushed (n : Notice) (s : State) : Hushed s (postponeNotice n s) := onEc_hushed s (by simp)

theorem raiseNotice_hushed (n : Notice) (s : State) : Hushed s (raiseNotice n s) := by
  unfold raiseNotice
  split
  · exact .refl s
  · exact postponeNotice_hushed n s
  all_goals exact .ite (fun _ => writeNotice_hushed n 1 s) fun _ => postponeNotice_hushed n s

theorem drainEntries_hushed (es : List BacklogEntry) (s : State) : Hushed s (drainEntries es s) := by
  induction es generalizing s with
  | nil => exact onEc_hushed s (by simp)
  | cons e es ih =>
    unfold drainEntries
    exact .ite (fun _ => (writeNotice_hushed ..).trans (ih _)) fun _ => onEc_hushed s (by simp)

/-! ### What FAILED takes -/

theorem strikeOne_hushed (s : State) (x : Upset) : Hushed s (strikeOne s x) := by
  cases x <;> exact .of_still rfl rfl rfl rfl rfl id

theorem strike_hushed (us : List Upset) (s : State) : Hushed s (strike us s) := by
  induction us generalizing s with
  | nil => exact .refl s
  | cons x us ih => exact (strikeOne_hushed s x).trans (ih _)

theorem freeRead_hushed (i : Nat) (s : State) : Hushed s (freeRead i s) := by
  refine ⟨rfl, fun _ => .inl rfl, fun k => ?_, .inl rfl, id, [], by simp [freeRead, State.setRead]⟩
  by_cases here : k = i <;> simp [freeRead, here]

theorem completeReset_failed {s : State} (failed : s.hp.device = .failed) : completeReset s = s := by
  simp [completeReset, failed]

theorem discardSlotRead_hushed (i : Nat) {s : State} (failed : s.hp.device = .failed) : Hushed s (discardSlotRead i s) := by
  rw [discardSlotRead, completeReset_failed (by simpa using failed)]
  refine ⟨rfl, fun k => ?_, fun _ => .inl rfl, .inl rfl, id, [], by simp⟩
  by_cases here : k = i <;> simp [here]

theorem discardAdminRead_hushed {s : State} (failed : s.hp.device = .failed) : Hushed s (discardAdminRead s) := by
  rw [discardAdminRead, completeReset_failed (by simpa using failed)]
  refine ⟨rfl, fun _ => .inl rfl, fun _ => .inl rfl, ?_, id, [], by simp⟩
  by_cases reading : s.ap.state = .reading <;> simp [reading]

theorem failSlotRead_hushed (i : Nat) {s : State} (failed : s.hp.device = .failed) : Hushed s (failSlotRead i s) := by
  have freed := freeRead_hushed i s
  have stays := freed.device.trans failed
  unfold failSlotRead
  dsimp only
  rw [if_neg (by simp [failed])]
  exact freed.trans (discardSlotRead_hushed i stays)

theorem failAdminRead_hushed {s : State} (failed : s.hp.device = .failed) : Hushed s (failAdminRead s) := by
  have freed := freeRead_hushed adminReadEntry s
  have stays := freed.device.trans failed
  unfold failAdminRead
  dsimp only
  rw [if_neg (by simp [failed])]
  exact freed.trans (discardAdminRead_hushed stays)

theorem takeCommand_hushed (effect : State → State) {s : State} (failed : s.hp.device = .failed) :
    Hushed s (takeCommand effect s) := by
  have freed := freeRead_hushed adminReadEntry s
  have stays := freed.device.trans failed
  refine .ite (fun _ => ?_) fun _ => .refl s
  dsimp only
  rw [if_neg (by simp [failed])]
  exact freed.trans (discardAdminRead_hushed stays)

theorem storeMode_hushed (w : Word32) (s : State) : Hushed s (storeMode w s) := by
  unfold storeMode
  split
  case h_4 | h_5 => exact .refl s
  all_goals
    split
    · exact .refl s
    · exact .of_still rfl rfl rfl rfl rfl id

theorem takeReport_hushed (r : EccReport) (s : State) : Hushed s (takeReport r s) := onEc_hushed s (by simp)

theorem setCorrectableCount_hushed (m : ProtectedMemory) (n : Nat) (s : State) : Hushed s (setCorrectableCount m n s) := by
  cases m <;> exact .of_still rfl rfl rfl rfl rfl id

theorem countCorrection_hushed (m : ProtectedMemory) (s : State) : Hushed s (countCorrection m s) :=
  .ite (fun _ => (setCorrectableCount_hushed m 0 s).trans (raiseNotice_hushed ..)) fun _ => setCorrectableCount_hushed ..

theorem writeNrPort_hushed (v : Word32) (s : State) : Hushed s (writeNrPort v s) := by
  have cleared := clearLatch_hushed s
  unfold writeNrPort
  split
  case h_4 | h_5 => exact .refl s
  all_goals
    refine .ite (fun _ => cleared.trans (raiseNotice_hushed ..)) fun _ => .ite (fun _ => ?_) fun _ =>
      cleared.trans (raiseNotice_hushed ..)
    exact (cleared.trans (onEc_hushed _ (by simp))).trans (drainEntries_hushed _ _)

/-! ### Resets leave FAILED -/

theorem completeReset_leaves {s : State} (resetting : s.hp.device = .resetting) : (completeReset s).hp.device ≠ .failed := by
  unfold completeReset
  split
  · simp [resetting, completeFunctionReset, HpBlock.reset]
  · simp [resetting]

theorem enterResetting_device (s : State) : (enterResetting s).hp.device = .resetting := by
  unfold enterResetting forLinks
  generalize List.range linkTotal = ls
  generalize start : dropReports _ = u
  have entered : u.hp.device = .resetting := by simp [← start]
  clear start
  induction ls generalizing u with
  | nil => exact entered
  | cons l ls ih => exact ih _ (by simpa using entered)

theorem startFunctionReset_leaves {s : State} (failed : s.hp.device = .failed) :
    (startFunctionReset s).hp.device ≠ .failed := by
  rw [startFunctionReset, if_neg (by simp [failed])]
  exact completeReset_leaves (enterResetting_device s)

theorem startHostLinkReset_leaves {s : State} (failed : s.hp.device = .failed) :
    (startHostLinkReset s).hp.device ≠ .failed := by
  rw [startHostLinkReset, if_neg (by simp [failed])]
  exact completeReset_leaves (enterResetting_device _)

/-- A CONTROL write that leaves the device in FAILED. -/
theorem writeControl_hushed (w : Word32) {s : State} (failed : s.hp.device = .failed)
    (stays : (writeControl w s).hp.device = .failed) : Hushed s (writeControl w s) := by
  have stored := storeMode_hushed w s
  unfold writeControl at stays ⊢
  rw [if_neg (by simp [failed])] at stays ⊢
  split at stays
  case isTrue => exact absurd stays (startFunctionReset_leaves failed)
  case isFalse notReset =>
    rw [if_neg notReset]
    have idles : startDevice (storeMode w s) = storeMode w s := if_neg (by simp [stored.device, failed])
    rw [idles, ite_self]
    exact stored

theorem writePort_hushed (n : Nat) (v : Word32) {s : State} (failed : s.hp.device = .failed) :
    Hushed s (writePort n v s) := by
  simp only [writePort, writeSqPort, writeAsrPort, writeCqPort, writeAcrPort, failed]
  repeat' refine .ite (fun _ => .refl s) fun _ => ?_
  exact writeNrPort_hushed v s

theorem writeWindow_hushed (offset width : Nat) (v : Word32) {s : State} (failed : s.hp.device = .failed)
    (stays : (writeWindow offset width v s).hp.device = .failed) : Hushed s (writeWindow offset width v s) := by
  unfold writeWindow at stays ⊢
  split
  · exact .refl s
  · next whole =>
    rw [if_neg whole] at stays
    split
    · next control =>
      rw [if_pos control] at stays
      exact writeControl_hushed v failed stays
    · split
      · simp only [writeSystemRegister, failed]
        exact .refl s
      · split
        · exact writePort_hushed _ v failed
        · exact .refl s

/-! ### The sixty commands -/

/-- A guard on RUNNING that FAILED does not pass. -/
theorem guarded_hushed {p : Prop} [Decidable p] {s u : State} (refused : ¬ p) : Hushed s (if p then u else s) :=
  .ite (fun holds => absurd holds refused) fun _ => .refl s

theorem descriptorReadReturn_hushed (i : Fin 8) (data : BitVec 512) {s : State} (failed : s.hp.device = .failed) :
    Hushed s (match s.slot i with
      | .descRead ring ringSlot =>
        if awaitsResponse s i then
          if s.hp.device = .running then returnDescriptor i ring ringSlot data (freeRead i s)
          else discardSlotRead i (freeRead i s)
        else s
      | .idle | .payload .. => s) := by
  have freed := freeRead_hushed i s
  split
  case h_1 =>
    rw [if_neg (by simp [failed] : ¬ s.hp.device = .running)]
    exact .ite (fun _ => freed.trans (discardSlotRead_hushed i (freed.device.trans failed))) fun _ => .refl s
  all_goals exact .refl s

theorem payloadReadReturn_hushed (i : Fin 8) (data : List Byte) {s : State} (failed : s.hp.device = .failed) :
    Hushed s (match s.slot i, s.read i with
      | .payload ring r segments current offset, some e =>
        if e.cutOff = false ∧ data.length = e.length then
          if s.hp.device = .running then returnPayload i ring r segments current offset data (freeRead i s)
          else discardSlotRead i (freeRead i s)
        else s
      | _, _ => s) := by
  have freed := freeRead_hushed i s
  split
  case h_1 =>
    rw [if_neg (by simp [failed] : ¬ s.hp.device = .running)]
    exact .ite (fun _ => freed.trans (discardSlotRead_hushed i (freed.device.trans failed))) fun _ => .refl s
  case h_2 => exact .refl s

theorem fetchEndEvent_hushed (r : Nat) {s : State} (failed : s.hp.device = .failed) : Hushed s (fetchEndEvent r s) := by
  unfold fetchEndEvent
  split
  · exact .refl s
  · dsimp only
    rw [if_neg (by simp [failed])]
    exact .of_still rfl rfl rfl rfl rfl id

theorem abortOrder_hushed (l : Fin 4) (r : Fin 2048) {s t : State} (failed : s.hp.device = .failed)
    (next : execAbortOrder l r s = .next t) : Hushed s t := by
  have taken : Hushed s (s.onLu fun b => { b with aborts := b.aborts.erase (l.val, r.val) }) :=
    .of_still rfl rfl rfl rfl rfl id
  simp only [execAbortOrder, State.onLu_fields, failed] at next
  split at next <;> cases next
  · split
    · exact taken
    · exact taken
  · exact .refl s

theorem hushed_of_next {s t u : State} {o : Outcome State Fault Refusal} (hushed : Hushed s u) (same : o = .next u)
    (next : o = .next t) : Hushed s t := by
  obtain rfl : u = t := by simpa [same] using next
  exact hushed

theorem exec_hushed {c : Instr} {s t : State} (failed : s.hp.device = .failed) (next : exec c s = .next t)
    (stays : t.hp.device = .failed) : Hushed s t := by
  have struck : ∀ us, (strike us s).hp.device = .failed := fun us => by simp [failed]
  have idle : ∀ {p : Prop} [Decidable p] {u : State}, ¬ p → Hushed s (if p then u else s) := guarded_hushed
  have command : ∀ effect, Hushed s (takeCommand effect s) := fun effect => takeCommand_hushed effect failed
  have protocol : ∀ l, Hushed s (protocolError l s) := fun l => guarded_hushed (by simp [failed])
  have control : ∀ w, exec c s = .next (writeControl w s) → Hushed s t := fun w same => by
    obtain rfl : writeControl w s = t := by simpa [same] using next
    exact writeControl_hushed w failed stays
  cases c with
  | powerOn =>
    cases next
    exact absurd stays (by simp [State.reset, HpBlock.reset])
  | hostLinkReset =>
    cases next
    exact absurd stays (startHostLinkReset_leaves failed)
  | functionReset w | run w | containmentModeWrite w => exact control w rfl
  | systemRingRegisterWrite r v => exact hushed_of_next (idle (by simp [failed])) rfl next
  | registerWrite o w v =>
    cases next
    exact writeWindow_hushed o w v failed stays
  | sqProducerIndexWrite n v =>
    refine hushed_of_next ?_ rfl next
    simp only [writeSqPort, failed]
    exact .refl s
  | asrProducerIndexWrite v =>
    refine hushed_of_next ?_ rfl next
    simp only [writeAsrPort, failed]
    exact .refl s
  | cqConsumerIndexWrite n v =>
    refine hushed_of_next ?_ rfl next
    simp only [writeCqPort, failed]
    exact .refl s
  | acrConsumerIndexWrite v =>
    refine hushed_of_next ?_ rfl next
    simp only [writeAcrPort, failed]
    exact .refl s
  | nrConsumerIndexWrite v => exact hushed_of_next (writeNrPort_hushed v s) rfl next
  | fetchSlotGrant => exact hushed_of_next (idle (by simp [failed])) rfl next
  | retry us => exact hushed_of_next ((strike_hushed us s).trans (guarded_hushed (by simp [failed]))) rfl next
  | descriptorReadReturn i x us =>
    exact hushed_of_next ((strike_hushed us s).trans (descriptorReadReturn_hushed i x (struck us))) rfl next
  | descriptorReadError i =>
    refine hushed_of_next ?_ rfl next
    split
    case h_1 => exact .ite (fun _ => failSlotRead_hushed i failed) fun _ => .refl s
    all_goals exact .refl s
  | payloadReadReturn i xs us =>
    exact hushed_of_next ((strike_hushed us s).trans (payloadReadReturn_hushed i xs (struck us))) rfl next
  | payloadReadError i =>
    refine hushed_of_next ?_ rfl next
    split
    case h_1 => exact .ite (fun _ => failSlotRead_hushed i failed) fun _ => .refl s
    all_goals exact .refl s
  | hostReadTimeout e =>
    refine hushed_of_next (.ite (fun _ => ?_) fun _ => .refl s) rfl next
    exact .ite (fun _ => failSlotRead_hushed e failed) fun _ => failAdminRead_hushed failed
  | strayReadResponse e => exact hushed_of_next (.refl s) rfl next
  | fetchEnd r us => exact hushed_of_next ((strike_hushed us s).trans (fetchEndEvent_hushed r (struck us))) rfl next
  | commandReadStart => exact hushed_of_next (guarded_hushed (by simp [commandReadAllowed, failed])) rfl next
  | commandReadError =>
    exact hushed_of_next (.ite (fun _ => failAdminRead_hushed failed) fun _ => .refl s) rfl next
  | createSq | deleteSq | createCq | deleteCq | configureFlow | enableFlow | disableFlow | flushFlow | queryFlow
  | enableLink | disableLink | setClassMap | queryLink | writeCalendar | activateCalendar | setErrorPolicy | queryPool
  | unknownCommand => exact hushed_of_next (command _) rfl next
  | ready l a b c d =>
    refine hushed_of_next ?_ rfl next
    rw [if_neg (by simp [failed])]
    exact protocol l
  | credit l lane n =>
    exact hushed_of_next (.ite (fun _ => idle (by simp [failed])) fun _ => protocol l) rfl next
  | down l x => exact hushed_of_next (idle (by simp [failed])) rfl next
  | malformedMessage l => exact hushed_of_next (protocol l) rfl next
  | offerTimerExpiry l => exact hushed_of_next (idle (by simp [failed])) rfl next
  | linkUpTimerExpiry l => exact hushed_of_next (idle (by simp [failed])) rfl next
  | cellSent l us =>
    refine hushed_of_next ((strike_hushed us s).trans ?_) rfl next
    split
    · exact .refl _
    · exact guarded_hushed (by simp [failed])
  | underrunTimerExpiry l =>
    refine hushed_of_next ?_ rfl next
    split
    · exact .refl _
    · exact guarded_hushed (by simp [failed])
  | abortOrder l r => exact abortOrder_hushed l r failed next
  | holdoffTimerExpiry n => exact hushed_of_next (idle (by simp [failed])) rfl next
  | correctionReport m =>
    have taken := takeReport_hushed (.correction m) s
    refine hushed_of_next ?_ rfl next
    split
    case h_1 | h_2 => exact taken.trans (countCorrection_hushed ..)
    all_goals exact taken
  | cellDataErrorReport l cell =>
    have taken := takeReport_hushed (.cellData l cell) s
    refine hushed_of_next ?_ rfl next
    split
    case h_1 | h_2 => exact taken.trans (raiseNotice_hushed ..)
    all_goals exact taken
  | fatalReport cause =>
    have taken := takeReport_hushed (.fatal cause) s
    refine hushed_of_next (u := (takeReport (.fatal cause) s).onEc fun b => { b with multiple := true }) ?_ ?_ next
    · exact taken.trans (.of_still rfl rfl rfl rfl rfl fun _ => rfl)
    · simp [exec, execFatalReport, failed]
  | selfResetCompletion => exact hushed_of_next (idle (by simp [failed])) rfl next
  | functionResetCompletion => exact hushed_of_next (idle (by simp [failed])) rfl next
  | flushEnd f => exact hushed_of_next (idle (by simp [failed])) rfl next
  | deletionEnd n => exact hushed_of_next (idle (by simp [failed])) rfl next
  | drainEnd l => exact hushed_of_next (idle (by simp [failed])) rfl next
  | activationApply l => exact hushed_of_next (idle (by simp [failed])) rfl next

/-- Settles O59: in FAILED a step frees reads, slots and the AP, counts, and sends notices; nothing else. -/
theorem failedDeviceStaysQuiet : Obligations.FailedDeviceStaysQuiet := by
  unfold Obligations.FailedDeviceStaysQuiet
  intro c s t failed next stays
  obtain ⟨same, slot, read, ap, multiple, out⟩ := exec_hushed failed next stays
  have apStays : { t.ap with state := .idle } = ({ s.ap with state := .idle } : ApBlock) := congrArg State.ap same
  simp only [still, State.mk.injEq, HpBlock.fixed, HpBlock.mk.injEq, BmBlock.mk.injEq, DfuBlock.mk.injEq,
    LuBlock.mk.injEq, EcBlock.fixed, EcBlock.mk.injEq, true_and, and_true] at same
  obtain ⟨⟨-, run, -, asrBase, asrSize, acrBase, acrSize, nrBase, nrSize⟩, ⟨cells, links, freeHead, freeTail, freeCount,
    frames, freeRecords, flows⟩, ⟨rings, held, lastRing⟩, ⟨luLinks, luOut⟩, es, cu, -, ⟨threshold, fatalCause⟩, -⟩ := same
  refine ⟨cells, links, freeHead, freeTail, freeCount, frames, freeRecords, flows, rings, held, lastRing, slot, read, luLinks,
    luOut, es, cu, ?_, ap, run, asrBase, asrSize, acrBase, acrSize, nrBase, nrSize, threshold, fatalCause, multiple, out⟩
  calc t.ap = { { t.ap with state := .idle } with state := t.ap.state } := rfl
    _ = { s.ap with state := t.ap.state } := by rw [apStays]

end Sys2Proof.Proofs.FailedDevice

/-! CONTROL writes (R172, R173, R185). -/

namespace Sys2Proof.Proofs.Control

open Sys2Proof Sys2Proof.Machine Host

theorem exec_functionReset (w : Word32) (s : State) : exec (.functionReset w) s = .next (writeControl w s) := by rfl
theorem exec_run (w : Word32) (s : State) : exec (.run w) s = .next (writeControl w s) := by rfl
theorem exec_containmentModeWrite (w : Word32) (s : State) :
    exec (.containmentModeWrite w) s = .next (writeControl w s) := by rfl

theorem controlMode_field (w : Word32) : (w.extractLsb' 4 2).toNat = w.toNat / 16 % 4 := by
  simp [Nat.shiftRight_eq_div_pow]

theorem controlMode_of_code {w : Word32} {m : ContainmentMode} (field : w.toNat / 16 % 4 = m.code) :
    controlMode w = some m := by
  rw [controlMode, controlMode_field, field]
  cases m <;> rfl

theorem controlMode_of_three {w : Word32} (field : w.toNat / 16 % 4 = 3) : controlMode w = none := by
  rw [controlMode, controlMode_field, field]
  rfl

theorem writeControl_resetting (w : Word32) {s : State} (resetting : s.hp.device = .resetting) : writeControl w s = s :=
  if_pos resetting

/-- A CONTROL write without FUNCTION_RESET. -/
theorem writeControl_of_noReset {w : Word32} {s : State} (up : s.hp.device ≠ .resetting) (noReset : w.getLsbD 1 = false) :
    writeControl w s = if controlRun w then startDevice (storeMode w s) else storeMode w s := by
  rw [writeControl, if_neg up, controlFunctionReset, noReset]
  rfl

@[simp] theorem storeMode_device (w : Word32) (s : State) : (storeMode w s).hp.device = s.hp.device := by
  unfold storeMode
  split <;> first | rfl | (split <;> rfl)

theorem startDevice_of_up {s : State} (up : s.hp.device ≠ .stopped) : startDevice s = s := if_neg up

/-- A CONTROL write that neither resets nor starts stores its mode. -/
theorem writeControl_stores {w : Word32} {s : State} (up : s.hp.device ≠ .resetting) (noReset : w.getLsbD 1 = false)
    (noStart : s.hp.device ≠ .stopped ∨ w.getLsbD 0 = false) : writeControl w s = storeMode w s := by
  rw [writeControl_of_noReset up noReset]
  split
  · next run =>
    have running : s.hp.device ≠ .stopped := noStart.resolve_right (by simpa [controlRun] using run)
    exact startDevice_of_up (by simpa using running)
  · rfl

/-- The device states in which a mode is stored (R172). -/
def takesMode (s : State) : Prop := s.hp.device = .stopped ∨ s.hp.device = .running ∨ s.hp.device = .failed

theorem storeMode_of_code {w : Word32} {m : ContainmentMode} {s : State} (takes : takesMode s)
    (field : w.toNat / 16 % 4 = m.code) : storeMode w s = s.onHp fun b => { b with mode := m } := by
  rcases takes with d | d | d <;> simp [storeMode, d, controlMode_of_code field]

theorem storeMode_of_three {w : Word32} {s : State} (field : w.toNat / 16 % 4 = 3) : storeMode w s = s := by
  unfold storeMode
  rw [controlMode_of_three field]
  split <;> rfl

theorem storeMode_selfResetting (w : Word32) {s : State} (resetting : s.hp.device = .selfResetting) :
    storeMode w s = s := by
  simp [storeMode, resetting]

/-- Settles O5: a CONTROL write stores its mode in STOPPED, RUNNING and FAILED, and does nothing in a reset. -/
theorem controlWriteFields : Obligations.ControlWriteFields := by
  unfold Obligations.ControlWriteFields
  intro w s
  simp only [exec_functionReset, exec_run, exec_containmentModeWrite]
  refine ⟨fun resetting => by simp [writeControl_resetting w resetting], fun noReset => ⟨fun resetting => ?_, fun m field =>
    ⟨fun up => ?_, fun stopped noRun => ?_⟩, fun field => ⟨fun up => ?_, fun stopped noRun => ?_⟩⟩⟩
  · simp [writeControl_stores (s := s) (by simp [resetting]) noReset (.inl (by simp [resetting])),
      storeMode_selfResetting w resetting]
  · have stores := writeControl_stores (s := s) (by rcases up with d | d <;> simp [d]) noReset
      (.inl (by rcases up with d | d <;> simp [d]))
    simp [stores, storeMode_of_code (.inr up) field]
  · rw [writeControl_stores (s := s) (by simp [stopped]) noReset (.inr noRun), storeMode_of_code (.inl stopped) field]
  · have stores := writeControl_stores (s := s) (by rcases up with d | d <;> simp [d]) noReset
      (.inl (by rcases up with d | d <;> simp [d]))
    simp [stores, storeMode_of_three field]
  · rw [writeControl_stores (s := s) (by simp [stopped]) noReset (.inr noRun), storeMode_of_three field]

/-! ### The start -/

theorem sizesValid_iff (s : State) : sizesValid s = true ↔
    s.hp.asrSize.toNat ∈ [16, 32, 64, 128, 256] ∧ s.hp.acrSize.toNat ∈ [16, 32, 64, 128, 256] ∧
      s.hp.nrSize.toNat ∈ [16, 32, 64, 128, 256] := by
  simp [sizesValid, systemRingSizes, and_assoc]

/-- The mode a start finds stored: the field's, or the old one. -/
theorem storeMode_start {w : Word32} {m : ContainmentMode} {s : State} (stopped : s.hp.device = .stopped)
    (field : w.toNat / 16 % 4 = m.code ∨ (w.toNat / 16 % 4 = 3 ∧ m = s.hp.mode)) :
    storeMode w s = s.onHp fun b => { b with mode := m } := by
  rcases field with field | ⟨field, rfl⟩
  · exact storeMode_of_code (.inl stopped) field
  · exact storeMode_of_three field

theorem startCommandRead_of_none {s : State} (none : s.ap.asrProducer = s.ap.asrHead) : startCommandRead s = s := by
  have pending : asrPending s = 0 := by simp [asrPending, ringDistance, none]
  exact if_neg (by simp [commandReadAllowed, pending])

@[simp] theorem startCommandRead_kept (s : State) : (startCommandRead s).ap.outstanding = s.ap.outstanding ∧
    (startCommandRead s).ap.asrHead = s.ap.asrHead := by
  unfold startCommandRead
  split <;> simp [issueRead]

/-- Settles O6: RUN in STOPPED starts the device where the three sizes are valid. -/
theorem runStartsDevice : Obligations.RunStartsDevice := by
  unfold Obligations.RunStartsDevice
  intro w m s stopped noReset run field
  rw [exec_run, writeControl_of_noReset (by simp [stopped]) noReset, if_pos (show controlRun w = true from run),
    storeMode_start stopped field, startDevice, if_pos (by simpa using stopped)]
  simp only [← sizesValid_iff]
  have sizes : sizesValid (s.onHp fun b => { b with mode := m }) = sizesValid s := rfl
  refine ⟨fun valid => ?_, fun invalid => ?_⟩
  · rw [sizes, if_pos valid]
    refine ⟨⟨_, rfl, ?_⟩, rfl, fun empty none => ?_⟩
    · have fixed : ∀ u : State, (startCommandRead (drainBacklog u)).hp.fixed = u.hp.fixed := fun u => by simp
      obtain ⟨device, ran, mode, config, -⟩ := HpBlock.fields_of_fixed (fixed ((s.onHp fun b => { b with mode := m }).onHp
        fun b => { b with device := .running, run := true, configError := false }))
      simp [ran, mode, config]
    · rw [NoticeRing.drainBacklog_of_empty (by simpa using empty), startCommandRead_of_none (by simpa using none)]
      rfl
  · rw [sizes, if_neg invalid]
    rfl

end Sys2Proof.Proofs.Control

/-! The window of registers: the system ring registers, the index ports, and what every register reads as (R175, R176,
R185). -/

namespace Sys2Proof.Proofs.Window

open Sys2Proof Sys2Proof.Machine Host

/-! ### The halves of a base -/

/-- A base whose low half is replaced by a word without its low bits. -/
theorem setLow_eq {d : Nat} (small : d ≤ 32) (base : Address) (v : Word32) :
    setLow d base v = BitVec.ofNat 64 (base.toNat / 2 ^ 32 * 2 ^ 32 + v.toNat / 2 ^ d * 2 ^ d) := by
  have low : v.toNat / 2 ^ d * 2 ^ d < 2 ^ 32 := lt_of_le_of_lt (Nat.div_mul_le_self _ _) v.isLt
  refine BitVec.eq_of_getLsbD_eq fun i inside => ?_
  rw [BitVec.getLsbD_ofNat, Nat.mul_comm, Nat.testBit_two_pow_mul_add _ low, Nat.testBit_mul_two_pow,
    Nat.testBit_div_two_pow, Nat.testBit_div_two_pow]
  simp only [setLow, BitVec.getLsbD_and, BitVec.getLsbD_or, BitVec.getLsbD_shiftLeft, BitVec.getLsbD_ushiftRight,
    BitVec.getLsbD_setWidth, BitVec.getLsbD_not, BitVec.getLsbD_ofNat, Nat.testBit_two_pow_sub_one, inside, decide_true,
    Bool.true_and]
  by_cases high : i < 32
  · by_cases kept : d ≤ i
    · have shift : i - d + d = i := by omega
      simp [high, kept, BitVec.getLsbD, shift, Nat.not_lt.mpr kept]
    · simp [high, kept, Nat.lt_of_not_le kept]
  · have kept : ¬ i < d := by omega
    have beyond : v.getLsbD i = false := BitVec.getLsbD_of_ge _ _ (by omega)
    simp [high, kept, BitVec.getLsbD] at beyond ⊢
    simp [beyond, Nat.add_comm 32]

/-- A base whose high half is replaced. -/
theorem setHigh_eq (base : Address) (v : Word32) :
    setHigh base v = BitVec.ofNat 64 (v.toNat * 2 ^ 32 + base.toNat % 2 ^ 32) := by
  refine BitVec.eq_of_getLsbD_eq fun i inside => ?_
  rw [BitVec.getLsbD_ofNat, Nat.mul_comm, Nat.testBit_two_pow_mul_add _ (Nat.mod_lt _ (by decide)), Nat.testBit_mod_two_pow]
  simp only [setHigh, BitVec.getLsbD_or, BitVec.getLsbD_shiftLeft, BitVec.getLsbD_ushiftRight, BitVec.getLsbD_setWidth,
    inside, decide_true, Bool.true_and]
  by_cases high : i < 32
  · simp [high, BitVec.getLsbD, show 32 + i < 64 by omega]
  · have beyond : ¬ 32 + i < 64 := by omega
    simp [high, BitVec.getLsbD, beyond]
    omega

/-! ### Places of the window -/

theorem systemRegisterAt_none {offset : Nat}
    (other : offset ∉ [0x010, 0x014, 0x018, 0x020, 0x024, 0x028, 0x030, 0x034, 0x038]) : systemRegisterAt offset = none := by
  unfold systemRegisterAt
  split <;> simp_all

theorem portAt_port {n : Nat} (inside : n < 51) : portAt (0x100 + 4 * n) = some n := by
  rw [portAt, if_pos (by omega)]
  congr 1
  omega

theorem portAt_none {offset : Nat} (other : ∀ n < 51, offset ≠ 0x100 + 4 * n) : portAt offset = none := by
  refine if_neg fun ⟨low, high, aligned⟩ => other ((offset - 0x100) / 4) (by omega) (by omega)

theorem systemRegisterAt_port (n : Nat) : systemRegisterAt (0x100 + 4 * n) = none := systemRegisterAt_none (by simp; omega)

theorem readRegister_port (s : State) {n : Nat} (inside : n < 51) :
    s.readRegister (0x100 + 4 * n) = BitVec.ofNat 32 (readPort s n) := by
  have notControl : ¬ 0x100 + 4 * n = 0 := by omega
  have notStatus : ¬ 0x100 + 4 * n = 4 := by omega
  rw [State.readRegister, if_neg notControl, if_neg notStatus, systemRegisterAt_port, portAt_port inside]

theorem readRegister_sq (s : State) {n : Nat} (inside : n < 32) : s.readRegister (0x100 + 4 * n) =
    if (s.sq n).state = .absent then 0 else BitVec.ofNat 32 (s.sq n).producer := by
  rw [readRegister_port s (by omega), readPort, if_pos inside]
  split <;> rfl

theorem readRegister_cq (s : State) {n : Nat} (inside : n < 16) : s.readRegister (0x184 + 4 * n) =
    if (s.cq n).state = .absent then 0 else BitVec.ofNat 32 (s.cq n).consumer := by
  have port : 0x184 + 4 * n = 0x100 + 4 * (33 + n) := by omega
  have cq : readPort s (33 + n) = if (s.cq n).state = .absent then 0 else (s.cq n).consumer := by
    rw [readPort, if_neg (by omega), if_neg (by omega), if_pos (by omega), Nat.add_sub_cancel_left]
  rw [port, readRegister_port s (by omega), cq]
  split <;> rfl

theorem readRegister_other (s : State) {offset : Nat}
    (other : offset ∉ [0x000, 0x004, 0x010, 0x014, 0x018, 0x020, 0x024, 0x028, 0x030, 0x034, 0x038])
    (notPort : ∀ n < 51, offset ≠ 0x100 + 4 * n) : s.readRegister offset = 0 := by
  simp only [List.mem_cons, not_or] at other
  obtain ⟨notControl, notStatus, system⟩ := other
  rw [State.readRegister, if_neg notControl, if_neg notStatus, systemRegisterAt_none (by simpa using system),
    portAt_none notPort]

theorem writeWindow_other {offset width : Nat} (v : Word32) (s : State)
    (other : width ≠ 4 ∨ (offset ≠ 0x000 ∧ offset ∉ [0x010, 0x014, 0x018, 0x020, 0x024, 0x028, 0x030, 0x034, 0x038] ∧
      ∀ n < 51, offset ≠ 0x100 + 4 * n)) : writeWindow offset width v s = s := by
  rcases other with width | ⟨notControl, notSystem, notPort⟩
  · exact if_pos width
  · rw [writeWindow, if_neg notControl, systemRegisterAt_none notSystem, portAt_none notPort, ite_self]

/-! ### System ring registers -/

theorem exec_systemRingRegisterWrite (r : SystemRingRegister) (v : Word32) (s : State) :
    exec (.systemRingRegisterWrite r v) s = .next (writeSystemRegister r v s) := by rfl
theorem exec_registerWrite (o k : Nat) (v : Word32) (s : State) :
    exec (.registerWrite o k v) s = .next (writeWindow o k v s) := by rfl

/-- Settles O7: the writes by place and device state, and the reads by place. -/
theorem registersWrittenAndRead : Obligations.RegistersWrittenAndRead := by
  unfold Obligations.RegistersWrittenAndRead
  refine ⟨fun v s => ⟨fun stopped => ?_, fun up r => ?_⟩, fun offset width v s other => ?_, fun s => ?_⟩
  · simp only [exec_systemRingRegisterWrite, writeSystemRegister, if_pos stopped, setHigh_eq,
      setLow_eq (show 6 ≤ 32 by decide), setLow_eq (show 5 ≤ 32 by decide), setLow_eq (show 4 ≤ 32 by decide)]
    simp
  · rw [exec_systemRingRegisterWrite, writeSystemRegister, if_neg up]
  · rw [exec_registerWrite, writeWindow_other v s other]
  · have high : ∀ x : Address, (x >>> 32).setWidth 32 = BitVec.ofNat 32 (x.toNat / 2 ^ 32) := fun x =>
      BitVec.eq_of_toNat_eq (by simp [Nat.shiftRight_eq_div_pow])
    have low : ∀ x : Address, x.setWidth 32 = BitVec.ofNat 32 x.toNat := fun x => BitVec.eq_of_toNat_eq (by simp)
    refine ⟨?_, ?_, low _, high _, rfl, low _, high _, rfl, low _, high _, rfl, fun n inside => readRegister_sq s inside,
      rfl, fun n inside => readRegister_cq s inside, rfl, rfl, fun offset other notPort =>
        readRegister_other s other notPort⟩
    · by_cases resetting : s.hp.device = .resetting <;> cases mode : s.hp.mode <;>
        simp [State.readRegister, controlWord, bit, resetting, mode, ContainmentMode.code]
    · cases device : s.hp.device <;> rcases cause : s.ec.fatalCause with - | - | - <;>
        simp [State.readRegister, statusWord, bit, device, cause, DeviceState.code, fatalCode, FatalCause.code]

end Sys2Proof.Proofs.Window

/-! Writes of the admin ring's index ports, and the index writes that the HP drops (R135, R146, R149, R176). -/

namespace Sys2Proof.Proofs.IndexPorts

open Sys2Proof Sys2Proof.Machine Host

theorem exec_asrProducerIndexWrite (v : Word32) (s : State) :
    exec (.asrProducerIndexWrite v) s = .next (writeAsrPort v s) := by rfl
theorem exec_acrConsumerIndexWrite (v : Word32) (s : State) :
    exec (.acrConsumerIndexWrite v) s = .next (writeAcrPort v s) := by rfl

/-- The device states in which the HP takes writes of the admin ring's index ports (R176). -/
def takesAdminIndex (s : State) : Prop := s.hp.device = .running ∨ s.hp.device = .selfResetting

theorem startCommandRead_of_not_running {s : State} (up : s.hp.device ≠ .running) : startCommandRead s = s :=
  if_neg (by simp [commandReadAllowed, up])

theorem writeAsrPort_eq (v : Word32) {s : State} (takes : takesAdminIndex s) : writeAsrPort v s =
    if s.hp.asrSize.toNat ≤ v.toNat then refuseIndex 32 v s
    else startCommandRead (s.onAp fun b => { b with asrProducer := v.toNat }) := by
  rcases takes with d | d <;> simp [writeAsrPort, d]

theorem writeAcrPort_eq (v : Word32) {s : State} (takes : takesAdminIndex s) : writeAcrPort v s =
    if s.hp.acrSize.toNat ≤ v.toNat then refuseIndex 49 v (clearLatch s)
    else if consumerInRange s.hp.acrSize.toNat s.ap.acrTail s.ap.acrConsumer v.toNat then
      startCommandRead ((clearLatch s).onAp fun b => { b with acrConsumer := v.toNat })
    else refuseIndex 49 v (clearLatch s) := by
  rcases takes with d | d <;> simp [writeAcrPort, d, clearLatch]

theorem writeAcrPort_of_accepted {v : Word32} {s : State} (takes : takesAdminIndex s) (below : v.toNat < s.hp.acrSize.toNat)
    (near : (v.toNat + s.hp.acrSize.toNat - s.ap.acrConsumer) % s.hp.acrSize.toNat
      ≤ (s.ap.acrTail + s.hp.acrSize.toNat - s.ap.acrConsumer) % s.hp.acrSize.toNat) :
    writeAcrPort v s = startCommandRead ((clearLatch s).onAp fun b => { b with acrConsumer := v.toNat }) := by
  rw [writeAcrPort_eq v takes, if_neg (by omega), if_pos (NoticeRing.consumerInRange_iff_near.mpr near)]

theorem writeAcrPort_of_refused {v : Word32} {s : State} (takes : takesAdminIndex s)
    (refused : s.hp.acrSize.toNat ≤ v.toNat ∨
      ¬ (v.toNat + s.hp.acrSize.toNat - s.ap.acrConsumer) % s.hp.acrSize.toNat
        ≤ (s.ap.acrTail + s.hp.acrSize.toNat - s.ap.acrConsumer) % s.hp.acrSize.toNat) :
    writeAcrPort v s = refuseIndex 49 v (clearLatch s) := by
  rw [writeAcrPort_eq v takes]
  rcases refused with above | far
  · rw [if_pos above]
  · rw [if_neg (show ¬ consumerInRange .. = true from NoticeRing.consumerInRange_iff_near.not.mpr far), ite_self]

/-- Settles O11: ports 32 and 49, and the index writes that each device state drops. -/
theorem indexWritesTakenOrDropped : Obligations.IndexWritesTakenOrDropped := by
  unfold Obligations.IndexWritesTakenOrDropped
  simp only [exec_asrProducerIndexWrite, exec_acrConsumerIndexWrite, NoticeRing.exec_nrConsumerIndexWrite,
    SubmissionRings.exec_sqProducerIndexWrite, CompletionRings.exec_cqConsumerIndexWrite]
  refine ⟨fun v s takes => ⟨fun below => ?_, fun above => ?_, fun below near => ?_, fun refused => ?_⟩, fun v s => ⟨?_, ?_, ?_⟩⟩
  · rw [writeAsrPort_eq v takes, if_neg (by omega)]
    exact ⟨fun resetting => by rw [startCommandRead_of_not_running (by simp [resetting])], fun _ => rfl⟩
  · rw [writeAsrPort_eq v takes, if_pos above]
    rfl
  · rw [writeAcrPort_of_accepted takes below near]
    exact ⟨fun resetting => by rw [startCommandRead_of_not_running (by simp [resetting])]; rfl, fun _ => rfl⟩
  · rw [writeAcrPort_of_refused takes refused]
    rfl
  · rintro (d | d | d) <;> simp [writeSqPort, writeCqPort, d]
  · rintro (d | d | d) <;> simp [writeAsrPort, writeAcrPort, d]
  · rintro (d | d) <;> simp [writeNrPort, d]

end Sys2Proof.Proofs.IndexPorts

/-! Where a raised notice goes, and the backlog's drain entry by entry (R165, R168, R169). -/

namespace Sys2Proof.Proofs.NoticeDrain

open Sys2Proof Sys2Proof.Machine Host Sys2Proof.Proofs.CompletionLedger

/-! ### One notice -/

theorem writeNotice_eq (n : Notice) (k : Nat) (s : State) : writeNotice n k s = { s with
    hp := { s.hp with
      out := s.hp.out ++ [.write16 (s.hp.nrBase.toNat + 16 * s.ec.nrTail) (noticeRecord n k s.ec.nrPhase)]
        ++ (if s.hp.latch then [] else [.interrupt 0]),
      latch := true },
    ec := { s.ec with
      nrTail := advance s.hp.nrSize.toNat s.ec.nrTail,
      nrPhase := if s.ec.nrTail + 1 = s.hp.nrSize.toNat then !s.ec.nrPhase else s.ec.nrPhase } } := by
  cases latch : s.hp.latch <;> simp [writeNotice, signalVector0, State.emit, State.onHp, State.onEc, latch]

theorem nrRoom_iff (s : State) : nrRoom s = true ↔
    (s.ec.nrTail + s.hp.nrSize.toNat - s.ec.nrConsumer) % s.hp.nrSize.toNat < s.hp.nrSize.toNat - 1 := decide_eq_true_iff

/-- The device states in which a notice may go into the ring. -/
theorem raiseNotice_taken (n : Notice) {s : State}
    (taken : s.hp.device = .running ∨ s.hp.device = .failed ∨ s.hp.device = .selfResetting) :
    raiseNotice n s = if s.ec.backlog.isEmpty && nrRoom s then writeNotice n 1 s else postponeNotice n s := by
  rcases taken with d | d | d <;> simp [raiseNotice, d]

/-! ### The drain -/

/-- How many more records the notice ring takes. -/
def nrLeft (s : State) : Nat := s.hp.nrSize.toNat - 1 - ringDistance s.hp.nrSize.toNat s.ec.nrTail s.ec.nrConsumer

/-- The slot and the phase that the notice ring reaches after `j` more records, fewer than its size. -/
def slotAfter (s : State) (j : Nat) : Nat := (s.ec.nrTail + j) % s.hp.nrSize.toNat
def phaseAfter (s : State) (j : Nat) : Bool :=
  if s.hp.nrSize.toNat ≤ s.ec.nrTail + j then !s.ec.nrPhase else s.ec.nrPhase

/-- The posted write of a backlog entry `j` records on. -/
def drained (s : State) (e : BacklogEntry) (j : Nat) : HostTraffic :=
  .write16 (s.hp.nrBase.toNat + 16 * slotAfter s j) (noticeRecord e.notice e.count (phaseAfter s j))

/-- The traffic without the messages on vector 0. -/
def written (s : State) : List HostTraffic := s.hp.out.filter fun x => x ≠ .interrupt 0

/-- The indexes of the notice ring stand below its size. -/
def nrSound (s : State) : Prop := s.ec.nrConsumer < s.hp.nrSize.toNat ∧ s.ec.nrTail < s.hp.nrSize.toNat

theorem nrRoom_iff_left {s : State} : nrRoom s = true ↔ 0 < nrLeft s := by
  rw [nrRoom, decide_eq_true_iff, nrLeft]
  omega

section Written
variable {s : State} (sound : nrSound s) (room : 0 < nrLeft s) (n : Notice) (k : Nat)

include sound room

omit sound in
theorem left_before : nrLeft s < s.hp.nrSize.toNat ∧
    ringDistance s.hp.nrSize.toNat s.ec.nrTail s.ec.nrConsumer + 1 < s.hp.nrSize.toNat := by
  unfold nrLeft at room ⊢
  omega

theorem nrSound_writeNotice : nrSound (writeNotice n k s) := by
  obtain ⟨consumer, tail⟩ := sound
  rw [writeNotice_eq]
  exact ⟨consumer, (ringDistance_advance tail consumer (left_before room).2).1⟩

theorem nrLeft_writeNotice : nrLeft (writeNotice n k s) = nrLeft s - 1 := by
  have step := (ringDistance_advance sound.2 sound.1 (left_before room).2).2
  rw [writeNotice_eq]
  show s.hp.nrSize.toNat - 1 - ringDistance s.hp.nrSize.toNat (advance s.hp.nrSize.toNat s.ec.nrTail) s.ec.nrConsumer = _
  rw [step, nrLeft]
  omega

omit sound room in
theorem slotAfter_writeNotice (j : Nat) : slotAfter (writeNotice n k s) j = slotAfter s (j + 1) := by
  rw [writeNotice_eq]
  show (advance s.hp.nrSize.toNat s.ec.nrTail + j) % s.hp.nrSize.toNat = (s.ec.nrTail + (j + 1)) % s.hp.nrSize.toNat
  rw [advance, Nat.mod_add_mod]
  congr 1
  omega

omit room in
theorem phaseAfter_writeNotice {j : Nat} (few : j + 1 < s.hp.nrSize.toNat) :
    phaseAfter (writeNotice n k s) j = phaseAfter s (j + 1) := by
  obtain ⟨-, tail⟩ := sound
  rw [writeNotice_eq]
  unfold phaseAfter
  dsimp only
  rw [advance_cases tail]
  by_cases wraps : s.ec.nrTail + 1 = s.hp.nrSize.toNat
  · rw [if_pos wraps, if_pos wraps, if_neg (by omega), if_pos (by omega)]
  · rw [if_neg wraps, if_neg wraps, Nat.add_right_comm, Nat.add_assoc]

end Written

theorem written_writeNotice (n : Notice) (k : Nat) (s : State) (tail : s.ec.nrTail < s.hp.nrSize.toNat) :
    written (writeNotice n k s) = written s ++ [drained s { notice := n, count := k } 0] := by
  have record : drained s { notice := n, count := k } 0 =
      .write16 (s.hp.nrBase.toNat + 16 * s.ec.nrTail) (noticeRecord n k s.ec.nrPhase) := by
    simp [drained, slotAfter, phaseAfter, Nat.mod_eq_of_lt tail, Nat.not_le.mpr tail]
  rw [record, writeNotice_eq]
  cases latch : s.hp.latch <;> simp [written]

/-- The entry at a place of a backlog. -/
def entryAt (es : List BacklogEntry) (j : Nat) : BacklogEntry := es.getD j { notice := .fatalError none, count := 0 }

/-- The drain of a list of entries: as many as the ring has room for are written, and the others stay. -/
theorem drainEntries_eq (es : List BacklogEntry) {s : State} (sound : nrSound s) :
    (drainEntries es s).ec = { s.ec with
      nrTail := slotAfter s (min es.length (nrLeft s)),
      nrPhase := phaseAfter s (min es.length (nrLeft s)),
      backlog := es.drop (min es.length (nrLeft s)) } ∧
    written (drainEntries es s) =
      written s ++ (List.range (min es.length (nrLeft s))).map fun j => drained s (entryAt es j) j := by
  have still : slotAfter s 0 = s.ec.nrTail ∧ phaseAfter s 0 = s.ec.nrPhase := by
    simp [slotAfter, phaseAfter, Nat.mod_eq_of_lt sound.2, Nat.not_le.mpr sound.2]
  induction es generalizing s with
  | nil => simp [drainEntries, still, written]
  | cons e es ih =>
    unfold drainEntries
    by_cases room : 0 < nrLeft s
    · rw [if_pos (nrRoom_iff_left.mpr room)]
      have below := (left_before room).1
      have sound' := nrSound_writeNotice sound room e.notice e.count
      obtain ⟨ec, out⟩ := ih sound' (by
        simp [slotAfter, phaseAfter, Nat.mod_eq_of_lt sound'.2, Nat.not_le.mpr sound'.2])
      have shorter : min (e :: es).length (nrLeft s) = min es.length (nrLeft s - 1) + 1 := by
        simp only [List.length_cons]
        omega
      have rest : min es.length (nrLeft (writeNotice e.notice e.count s)) = min es.length (nrLeft s - 1) := by
        rw [nrLeft_writeNotice sound room]
      rw [rest] at ec out
      generalize count : min es.length (nrLeft s - 1) = k at *
      have few : k + 1 < s.hp.nrSize.toNat := by omega
      rw [ec, out, shorter, slotAfter_writeNotice, phaseAfter_writeNotice sound _ _ few,
        written_writeNotice _ _ _ sound.2, List.range_succ_eq_map]
      refine ⟨by rw [writeNotice_eq]; rfl, ?_⟩
      rw [List.append_assoc, List.map_cons, List.map_map, List.singleton_append]
      have later : ∀ j ∈ List.range k, drained (writeNotice e.notice e.count s) (entryAt es j) j =
          drained s (entryAt (e :: es) (j + 1)) (j + 1) := fun j among => by
        have inside := List.mem_range.mp among
        rw [drained, drained, slotAfter_writeNotice, phaseAfter_writeNotice sound _ _ (by omega), writeNotice_eq]
        rfl
      rw [List.map_congr_left later]
      rfl
    · have none : nrLeft s = 0 := by omega
      rw [if_neg (by rw [nrRoom_iff_left]; exact room)]
      simp [none, still, written]

/-- Settles O13: where a notice goes by device state, backlog and room, and the drain by induction on the backlog. -/
theorem noticesPlacedAndDrained : Obligations.NoticesPlacedAndDrained := by
  unfold Obligations.NoticesPlacedAndDrained
  refine ⟨fun n s => ⟨fun resetting => by simp [raiseNotice, resetting], fun stopped => ?_, fun taken => ⟨?_, ?_⟩⟩,
    fun s consumer tail => drainEntries_eq s.ec.backlog ⟨consumer, tail⟩⟩
  · simp only [raiseNotice, stopped]
    rfl
  · intro empty room
    rw [raiseNotice_taken n taken, if_pos (by simp [empty, (nrRoom_iff s).mpr room]), writeNotice_eq]
    rfl
  · intro full
    rw [raiseNotice_taken n taken, if_neg]
    · rfl
    · rw [Bool.and_eq_true, List.isEmpty_iff, nrRoom_iff]
      exact fun ⟨empty, room⟩ => full.elim (· empty) (· room)

end Sys2Proof.Proofs.NoticeDrain

/-! The layouts of the records the part writes, field by field (R181, R182, sections 11.3, 11.5, 11.6, 11.8). -/

namespace Sys2Proof.Proofs.RecordLayouts

open Sys2Proof Sys2Proof.Machine

/-! ### A field of a layout -/

theorem recordField_testBit {n : Nat} (r : BitVec n) (o w i : Nat) :
    (recordField r o w).testBit i = (decide (i < 8 * w) && r.getLsbD (8 * o + i)) := by
  rw [recordField, BitVec.testBit_toNat, BitVec.getLsbD_extractLsb']

/-- A field with other fields beside it: the fields of its own place, and of the rest. -/
theorem recordField_or {n : Nat} (x y : BitVec n) (o w : Nat) :
    recordField (x ||| y) o w = recordField x o w ||| recordField y o w :=
  Nat.eq_of_testBit_eq fun i => by
    simp only [recordField_testBit, Nat.testBit_or, BitVec.getLsbD_or, Bool.and_or_distrib_left]

theorem recordField_zero {n : Nat} (o w : Nat) : recordField (0 : BitVec n) o w = 0 := by simp [recordField]

/-- The bits of one placed value. -/
theorem placed_getLsbD (n o w v i : Nat) : (BitVec.ofNat n (v % 2 ^ (8 * w)) <<< (8 * o)).getLsbD i =
    (decide (i < n) && !decide (i < 8 * o) && decide (i - 8 * o < 8 * w) && v.testBit (i - 8 * o)) := by
  rw [BitVec.getLsbD_shiftLeft, BitVec.getLsbD_ofNat, Nat.testBit_mod_two_pow]
  by_cases inside : i < n
  · simp [inside, show i - 8 * o < n by omega, Bool.and_assoc]
  · simp [inside]

/-- The place asked for holds the value placed there. -/
theorem recordField_same {n o w : Nat} (v : Nat) (fits : 8 * o + 8 * w ≤ n) :
    recordField (BitVec.ofNat n (v % 2 ^ (8 * w)) <<< (8 * o)) o w = v % 2 ^ (8 * w) :=
  Nat.eq_of_testBit_eq fun i => by
    rw [recordField_testBit, placed_getLsbD, Nat.testBit_mod_two_pow]
    by_cases inside : i < 8 * w
    · simp [inside, show 8 * o + i < n by omega]
    · simp [inside]

/-- A place beside it holds nothing of it. -/
theorem recordField_beside {n o w p k : Nat} (v : Nat) (beside : o + w ≤ p ∨ p + k ≤ o) :
    recordField (BitVec.ofNat n (v % 2 ^ (8 * k)) <<< (8 * p)) o w = 0 :=
  Nat.eq_of_testBit_eq fun i => by
    rw [recordField_testBit, placed_getLsbD, Nat.zero_testBit]
    by_cases inside : i < 8 * w
    · by_cases low : 8 * o + i < 8 * p
      · simp [low]
      · simp [show ¬ 8 * o + i - 8 * p < 8 * k by omega]
    · simp [inside]

/-- Reading a layout, one field after another. -/
theorem recordField_nil (n o w : Nat) : recordField (layout n []) o w = 0 := recordField_zero o w

theorem recordField_cons (n o w p k v : Nat) (rest : List (Nat × Nat × Nat)) : recordField (layout n ((p, k, v) :: rest)) o w =
    recordField (BitVec.ofNat n (v % 2 ^ (8 * k)) <<< (8 * p)) o w ||| recordField (layout n rest) o w :=
  recordField_or ..

theorem recordField_here {n o w : Nat} (v : Nat) (rest : List (Nat × Nat × Nat)) (fits : 8 * o + 8 * w ≤ n) :
    recordField (layout n ((o, w, v) :: rest)) o w = v % 2 ^ (8 * w) ||| recordField (layout n rest) o w := by
  rw [recordField_cons, recordField_same v fits]

theorem recordField_there {n o w p k : Nat} (v : Nat) (rest : List (Nat × Nat × Nat)) (beside : o + w ≤ p ∨ p + k ≤ o) :
    recordField (layout n ((p, k, v) :: rest)) o w = recordField (layout n rest) o w := by
  rw [recordField_cons, recordField_beside v beside, Nat.zero_or]

/-! ### The codes fit their fields -/

theorem frameStatus_small (st : FrameStatus) : st.code < 256 := by cases st <;> decide
theorem subcode_small (sub : Subcode) : sub.code < 256 := by cases sub <;> decide
theorem adminStatus_small (st : AdminStatus) : st.code < 256 := by cases st <;> decide
theorem linkCause_small (c : LinkCause) : c.code < 256 := by cases c <;> decide
theorem fatalCode_small (c : Option FatalCause) : fatalCode c < 256 := by rcases c with - | - | - <;> decide
theorem memory_small (m : ProtectedMemory) : m.code < 256 := by cases m <;> decide
theorem kind_small (n : Notice) : n.kind < 256 := by cases n <;> simp [Notice.kind]
theorem bit_small (b : Bool) : bit b < 256 := by cases b <;> decide

/-! ### The records -/

theorem completionRecord_fields (tag : BitVec 32) (head ring sent : Nat) (st : FrameStatus) (sub : Subcode)
    (cut phase : Bool) (headFits : head < 4096) (ringFits : ring < 32) (sentFits : sent ≤ 64) :
    let r := completionRecord tag head ring st sub sent cut phase
    recordField r 0 4 = tag.toNat ∧ recordField r 4 2 = head ∧ recordField r 6 1 = ring ∧ recordField r 7 1 = st.code ∧
    recordField r 8 1 = sub.code ∧ recordField r 9 1 = sent ∧ recordField r 10 1 = bit cut ∧ recordField r 11 4 = 0 ∧
    recordField r 15 1 = bit phase := by
  have status := frameStatus_small st
  have subcode := subcode_small sub
  have tagFits := tag.isLt
  have cutFits := bit_small cut
  have phaseFits := bit_small phase
  simp (disch := omega) only [completionRecord, recordField_here, recordField_there, recordField_nil, Nat.or_zero,
    Nat.reduceMul, Nat.reducePow, Nat.mod_eq_of_lt, and_self]

theorem adminRecord_fields (tag : BitVec 16) (kind head result : Nat) (st : AdminStatus) (phase : Bool)
    (kindFits : kind < 256) (headFits : head < 256) (resultFits : result < 2 ^ 160) :
    let r := adminRecord tag kind st head result phase
    recordField r 0 2 = tag.toNat ∧ recordField r 2 1 = kind ∧ recordField r 3 1 = st.code ∧ recordField r 4 2 = head ∧
    recordField r 6 2 = 0 ∧ recordField r 8 20 = result ∧ recordField r 28 3 = 0 ∧ recordField r 31 1 = bit phase := by
  have status := adminStatus_small st
  have tagFits := tag.isLt
  have phaseFits := bit_small phase
  simp (disch := omega) only [adminRecord, recordField_here, recordField_there, recordField_nil, Nat.or_zero,
    Nat.reduceMul, Nat.reducePow, Nat.mod_eq_of_lt, and_self]

/-- The fields that every notice record has, its parameters standing at bytes 4 to 11. -/
theorem noticeRecord_fields (n : Notice) (count : Nat) (phase : Bool) (countFits : count ≤ 65535) :
    let r := noticeRecord n count phase
    recordField r 0 1 = n.kind ∧ recordField r 1 1 = 0 ∧ recordField r 2 2 = count ∧ recordField r 12 3 = 0 ∧
    recordField r 15 1 = bit phase := by
  have kind := kind_small n
  have phaseFits := bit_small phase
  cases n <;>
    simp (disch := omega) only [noticeRecord, Notice.parameters, List.cons_append, List.nil_append, recordField_here,
      recordField_there, recordField_nil, Nat.or_zero, Nat.reduceMul, Nat.reducePow, Nat.mod_eq_of_lt, and_self]

/-- The parameters of each kind of notice. -/
theorem noticeRecord_parameters (n : Notice) (count : Nat) (phase : Bool) :
    let r := noticeRecord n count phase
    (∀ port value, n = .indexError port value → port ≤ 50 →
      recordField r 4 1 = port ∧ recordField r 5 3 = 0 ∧ recordField r 8 4 = value.toNat) ∧
    (∀ link cause, n = .linkFailed link cause → link < 4 →
      recordField r 4 1 = link ∧ recordField r 5 1 = cause.code ∧ recordField r 6 6 = 0) ∧
    (∀ link cell, n = .cellDataError link cell → link < 4 → cell < 8192 →
      recordField r 4 1 = link ∧ recordField r 5 1 = 0 ∧ recordField r 6 2 = cell ∧ recordField r 8 4 = 0) ∧
    (∀ ring slot, n = .ringError ring slot → ring ≤ 32 → slot < 4096 →
      recordField r 4 1 = ring ∧ recordField r 5 1 = 0 ∧ recordField r 6 2 = slot ∧ recordField r 8 4 = 0) ∧
    (∀ memory limit, n = .correctableLimit memory limit → limit ≤ 65535 →
      recordField r 4 1 = memory.code ∧ recordField r 5 3 = 0 ∧ recordField r 8 2 = limit ∧ recordField r 10 2 = 0) ∧
    (∀ cause, n = .fatalError cause ∨ n = .selfResetDone cause →
      recordField r 4 1 = fatalCode cause ∧ recordField r 5 7 = 0) := by
  refine ⟨?_, ?_, ?_, ?_, ?_, ?_⟩
  · rintro port value rfl portFits
    have valueFits := value.isLt
    simp (disch := omega) only [noticeRecord, Notice.parameters, List.cons_append, List.nil_append, recordField_here,
      recordField_there, recordField_nil, Nat.or_zero, Nat.reduceMul, Nat.reducePow, Nat.mod_eq_of_lt, and_self]
  · rintro link cause rfl linkFits
    have causeFits := linkCause_small cause
    simp (disch := omega) only [noticeRecord, Notice.parameters, List.cons_append, List.nil_append, recordField_here,
      recordField_there, recordField_nil, Nat.or_zero, Nat.reduceMul, Nat.reducePow, Nat.mod_eq_of_lt, and_self]
  · rintro link cell rfl linkFits cellFits
    simp (disch := omega) only [noticeRecord, Notice.parameters, List.cons_append, List.nil_append, recordField_here,
      recordField_there, recordField_nil, Nat.or_zero, Nat.reduceMul, Nat.reducePow, Nat.mod_eq_of_lt, and_self]
  · rintro ring slot rfl ringFits slotFits
    simp (disch := omega) only [noticeRecord, Notice.parameters, List.cons_append, List.nil_append, recordField_here,
      recordField_there, recordField_nil, Nat.or_zero, Nat.reduceMul, Nat.reducePow, Nat.mod_eq_of_lt, and_self]
  · rintro memory limit rfl limitFits
    have memoryFits := memory_small memory
    simp (disch := omega) only [noticeRecord, Notice.parameters, List.cons_append, List.nil_append, recordField_here,
      recordField_there, recordField_nil, Nat.or_zero, Nat.reduceMul, Nat.reducePow, Nat.mod_eq_of_lt, and_self]
  · rintro cause (rfl | rfl) <;>
    · have causeFits := fatalCode_small cause
      simp (disch := omega) only [noticeRecord, Notice.parameters, List.cons_append, List.nil_append, recordField_here,
        recordField_there, recordField_nil, Nat.or_zero, Nat.reduceMul, Nat.reducePow, Nat.mod_eq_of_lt, and_self]

/-! ### The messages to a partner -/

theorem header_bytes {lane cls flow length cells : Nat} (laneFits : lane < 4) (clsFits : cls < 8) (flowFits : flow < 128)
    (lengthFits : length ≤ 16384) (cellsFit : cells ≤ 64) :
    (LinkMessage.header lane cls flow length cells).bytes.map BitVec.toNat =
      [2, lane, cls, flow, cells, length % 256, length / 256] := by
  simp only [LinkMessage.bytes, List.map_cons, List.map_nil, BitVec.toNat_ofNat, Nat.reducePow, Nat.reduceMod,
    List.cons.injEq, and_true, true_and]
  omega

/-- Settles O15: each record's fields stand where the formats put them, with every other byte 0. -/
theorem writtenRecordLayouts : Obligations.WrittenRecordLayouts := by
  unfold Obligations.WrittenRecordLayouts
  refine ⟨fun tag head ring sent st sub cut phase => completionRecord_fields tag head ring sent st sub cut phase,
    fun tag kind head result st phase => adminRecord_fields tag kind head result st phase, fun n count phase countFits => ?_,
    fun link linkFits => ?_, fun _ _ _ _ _ lane cls flow _ length _ cells => header_bytes lane cls flow length cells,
    fun _ => rfl, fun good => ?_, rfl, rfl, rfl, rfl, rfl, rfl, fun _ => rfl, rfl, rfl, fun _ _ _ _ _ _ _ _ _ _ => rfl⟩
  · obtain ⟨kind, reserved, counted, unused, phased⟩ := noticeRecord_fields n count phase countFits
    exact ⟨kind, reserved, counted, unused, phased, noticeRecord_parameters n count phase⟩
  · have byte : link % 256 = link := by omega
    simp [LinkMessage.bytes, byte]
  · cases good <;> rfl

end Sys2Proof.Proofs.RecordLayouts

/-! Admin completions, the AP's command read, and the ends of host reads outside RUNNING (R136, R138, R145, R149, R151 to
R153, R178). -/

namespace Sys2Proof.Proofs.HostReads

open Sys2Proof Sys2Proof.Machine Host

theorem exec_commandReadStart (s : State) : exec .commandReadStart s = .next (startCommandRead s) := by rfl
theorem exec_commandReadError (s : State) : exec .commandReadError s =
    .next (if awaitsResponse s adminReadEntry then failAdminRead s else s) := by rfl
theorem exec_hostReadTimeout (e : Fin 9) (s : State) : exec (.hostReadTimeout e) s =
    .next (if (s.read e).isSome then if e.val < slotTotal then failSlotRead e s else failAdminRead s else s) := by rfl
theorem exec_descriptorReadReturn (i : Fin 8) (x : BitVec 512) (us : List Upset) (s : State) :
    exec (.descriptorReadReturn i x us) s = execDescriptorReadReturn i x us s := by rfl
theorem exec_payloadReadReturn (i : Fin 8) (xs : List Byte) (us : List Upset) (s : State) :
    exec (.payloadReadReturn i xs us) s = execPayloadReadReturn i xs us s := by rfl
theorem exec_descriptorReadError (i : Fin 8) (s : State) :
    exec (.descriptorReadError i) s = execDescriptorReadError i s := by rfl
theorem exec_payloadReadError (i : Fin 8) (s : State) : exec (.payloadReadError i) s = execPayloadReadError i s := by rfl
theorem exec_selfResetCompletion (s : State) : exec .selfResetCompletion s =
    .next (if s.hp.device = .selfResetting ∧ readsEmpty s then completeSelfReset s else s) := by rfl
theorem exec_functionResetCompletion (s : State) : exec .functionResetCompletion s =
    .next (if s.hp.device = .resetting ∧ readsEmpty s then completeFunctionReset s else s) := by rfl

theorem commandReadError_fails {s : State} (awaits : awaitsResponse s 8 = true) :
    exec .commandReadError s = .next (failAdminRead s) := by
  rw [exec_commandReadError, if_pos (show awaitsResponse s adminReadEntry = true from awaits)]

theorem hostReadTimeout_admin {s : State} (outstanding : (s.read 8).isSome = true) :
    exec (.hostReadTimeout 8) s = .next (failAdminRead s) := by
  rw [exec_hostReadTimeout, if_pos (show (s.read (8 : Fin 9)).isSome = true from outstanding), if_neg (by decide)]

/-- Every command with an admin encoding is taken by the AP's command read. -/
theorem exec_of_encoded {c : Instr} {r : BitVec 512} (encoded : encodeAdminCommand c = some r) :
    ∃ effect, ∀ s, exec c s = .next (takeCommand effect s) := by
  cases c <;> first | exact ⟨_, fun _ => rfl⟩ | cases encoded

/-! ### Admin completions and the command read -/

theorem adminComplete_eq (tag : BitVec 16) (kind : Nat) (st : AdminStatus) (result : Nat) (s : State) :
    adminComplete tag kind st result s = { s with
      hp := { s.hp with
        out := s.hp.out ++ [.write32 (s.hp.acrBase.toNat + 32 * s.ap.acrTail)
            (adminRecord tag kind st s.ap.asrHead result s.ap.acrPhase)]
          ++ (if s.hp.latch then [] else [.interrupt 0]),
        latch := true },
      ap := { s.ap with
        acrTail := advance s.hp.acrSize.toNat s.ap.acrTail,
        acrPhase := if s.ap.acrTail + 1 = s.hp.acrSize.toNat then !s.ap.acrPhase else s.ap.acrPhase } } := by
  cases latch : s.hp.latch <;> simp [adminComplete, signalVector0, State.emit, State.onHp, State.onAp, latch]

/-- R136's condition, with the free count of the moment. -/
theorem commandReadAllowed_iff (s : State) : commandReadAllowed s = true ↔
    s.hp.device = .running ∧ s.ap.state = .idle ∧
      0 < (s.ap.asrProducer + s.hp.asrSize.toNat - s.ap.asrHead) % s.hp.asrSize.toNat ∧
      1 ≤ s.hp.acrSize.toNat - 1 - (s.ap.acrTail + s.hp.acrSize.toNat - s.ap.acrConsumer) % s.hp.acrSize.toNat
        - s.ap.outstanding.length := by
  simp only [commandReadAllowed, Bool.and_eq_true, decide_eq_true_eq, and_assoc]
  refine and_congr_right fun _ => and_congr_right fun idle => ?_
  have reserved : acrReserved s = s.ap.outstanding.length := by simp [acrReserved, idle]
  rw [acrFree, reserved]
  rfl

theorem failAdminRead_running {s : State} (running : s.hp.device = .running) (reading : s.ap.state = .reading) :
    failAdminRead s = raiseNotice (.ringError 32 s.ap.asrHead)
      ((s.setRead 8 none).onAp fun b => { b with state := .error }) := by
  simp [failAdminRead, freeRead, running, reading, adminReadEntry]

/-- Settles O16: an admin completion as a whole, and the command read's start and failure. -/
theorem adminCompletionsAndCommandReads : Obligations.AdminCompletionsAndCommandReads := by
  unfold Obligations.AdminCompletionsAndCommandReads
  refine ⟨fun tag kind st result s => adminComplete_eq tag kind st result s,
    fun s => ⟨exec_commandReadStart s, fun allowed => ?_, fun denied => ?_⟩, fun s running reading => ⟨fun awaits => ?_,
      fun outstanding => ?_⟩⟩
  · rw [startCommandRead, if_pos ((commandReadAllowed_iff s).mpr allowed)]
    rfl
  · rw [startCommandRead, if_neg (mt (commandReadAllowed_iff s).mp denied)]
  · rw [commandReadError_fails awaits, failAdminRead_running running reading]
  · rw [hostReadTimeout_admin outstanding, failAdminRead_running running reading]

/-! ### Responses that find no entry -/

theorem awaitsResponse_of_none {s : State} {i : Nat} (free : s.read i = none) : awaitsResponse s i = false := by
  simp [awaitsResponse, free]

theorem takeCommand_of_none (effect : State → State) {s : State} (free : s.read 8 = none) : takeCommand effect s = s :=
  if_neg (by simp [adminReadEntry, awaitsResponse_of_none free])

theorem descriptorReadReturn_of_none (i : Fin 8) (x : BitVec 512) {s : State} (free : s.read i = none) :
    exec (.descriptorReadReturn i x []) s = .next s := by
  rw [exec_descriptorReadReturn, execDescriptorReadReturn, strike_nil]
  split <;> simp [awaitsResponse_of_none free]

theorem payloadReadReturn_of_none (i : Fin 8) (xs : List Byte) {s : State} (free : s.read i = none) :
    exec (.payloadReadReturn i xs []) s = .next s := by
  rw [exec_payloadReadReturn, execPayloadReadReturn, strike_nil, free]
  split <;> simp_all

theorem descriptorReadError_of_none (i : Fin 8) {s : State} (free : s.read i = none) :
    exec (.descriptorReadError i) s = .next s := by
  rw [exec_descriptorReadError, execDescriptorReadError]
  split <;> simp [awaitsResponse_of_none free]

theorem payloadReadError_of_none (i : Fin 8) {s : State} (free : s.read i = none) :
    exec (.payloadReadError i) s = .next s := by
  rw [exec_payloadReadError, execPayloadReadError]
  split <;> simp [awaitsResponse_of_none free]

/-! ### Ends of reads outside RUNNING -/

theorem readsEmpty_iff (s : State) : readsEmpty s = true ↔ ∀ j < 9, s.read j = none := by
  simp [readsEmpty, readTotal]

/-- What the end of a read brings outside RUNNING: the completion of a reset that waits for no other read. -/
theorem completeReset_ends {c : Instr} {s t : State} (same : t.hp.device = s.hp.device)
    (next : exec c s = .next (completeReset t)) :
    (s.hp.device = .failed ∨ (∃ j < 9, t.read j ≠ none) → exec c s = .next t) ∧
    (s.hp.device = .selfResetting → (∀ j < 9, t.read j = none) → exec c s = exec .selfResetCompletion t) ∧
    (s.hp.device = .resetting → (∀ j < 9, t.read j = none) → exec c s = exec .functionResetCompletion t) := by
  rw [next, exec_selfResetCompletion, exec_functionResetCompletion]
  refine ⟨?_, fun d empty => ?_, fun d empty => ?_⟩
  · rintro (failed | ⟨j, inside, outstanding⟩)
    · rw [FailedDevice.completeReset_failed (same.trans failed)]
    · have waits : ¬ readsEmpty t = true := fun empty => outstanding ((readsEmpty_iff t).mp empty j inside)
      rw [completeReset, if_neg waits]
  · have all := (readsEmpty_iff t).mpr empty
    simp [completeReset, all, same.trans d]
  · have all := (readsEmpty_iff t).mpr empty
    simp [completeReset, all, same.trans d]

/-- A slot's read, ended outside RUNNING. -/
theorem failSlotRead_discards (i : Nat) {s : State} (up : s.hp.device ≠ .running) :
    failSlotRead i s = completeReset ((s.setRead i none).setSlot i .idle) := by
  simp [failSlotRead, freeRead, up, discardSlotRead]

/-- The AP's read, ended outside RUNNING. -/
theorem discardAdminRead_reading {s : State} (reading : s.ap.state = .reading) :
    discardAdminRead (freeRead adminReadEntry s) =
      completeReset ((s.setRead 8 none).onAp fun b => { b with state := .idle }) := by
  simp [discardAdminRead, freeRead, adminReadEntry, State.onAp, reading]

theorem failAdminRead_discards {s : State} (up : s.hp.device ≠ .running) (reading : s.ap.state = .reading) :
    failAdminRead s = completeReset ((s.setRead 8 none).onAp fun b => { b with state := .idle }) := by
  rw [failAdminRead, if_neg (by simpa using up), discardAdminRead_reading reading]

theorem takeCommand_discards (effect : State → State) {s : State} (up : s.hp.device ≠ .running)
    (reading : s.ap.state = .reading) (awaits : awaitsResponse s 8 = true) :
    takeCommand effect s = completeReset ((s.setRead 8 none).onAp fun b => { b with state := .idle }) := by
  rw [takeCommand, if_pos (show awaitsResponse s adminReadEntry = true from awaits)]
  dsimp only
  rw [if_neg (by simpa using up), discardAdminRead_reading reading]

theorem hostReadTimeout_slot (i : Fin 8) {s : State} (outstanding : (s.read i).isSome = true) :
    exec (.hostReadTimeout (i.castLE (by decide))) s = .next (failSlotRead i s) := by
  rw [exec_hostReadTimeout]
  simp [outstanding, slotTotal]

theorem descriptorReadReturn_discards (i : Fin 8) (x : BitVec 512) {s : State} {ring k : Nat} (up : s.hp.device ≠ .running)
    (slot : s.slot i = .descRead ring k) (awaits : awaitsResponse s i = true) :
    exec (.descriptorReadReturn i x []) s = .next (completeReset ((s.setRead i none).setSlot i .idle)) := by
  rw [exec_descriptorReadReturn, execDescriptorReadReturn, strike_nil, slot]
  simp [awaits, up, discardSlotRead, freeRead]

theorem descriptorReadError_fails (i : Fin 8) {s : State} {ring k : Nat} (slot : s.slot i = .descRead ring k)
    (awaits : awaitsResponse s i = true) : exec (.descriptorReadError i) s = .next (failSlotRead i s) := by
  rw [exec_descriptorReadError, execDescriptorReadError, slot]
  simp [awaits]

theorem payloadReadReturn_discards (i : Fin 8) {xs : List Byte} {s : State} {ring r j k : Nat} {gs : List Segment}
    {e : HostRead} (up : s.hp.device ≠ .running) (slot : s.slot i = .payload ring r gs j k) (read : s.read i = some e)
    (awaits : e.cutOff = false) (whole : xs.length = e.length) :
    exec (.payloadReadReturn i xs []) s = .next (completeReset ((s.setRead i none).setSlot i .idle)) := by
  rw [exec_payloadReadReturn, execPayloadReadReturn, strike_nil, slot, read]
  simp [awaits, whole, up, discardSlotRead, freeRead]

theorem payloadReadError_fails (i : Fin 8) {s : State} {ring r j k : Nat} {gs : List Segment}
    (slot : s.slot i = .payload ring r gs j k) (awaits : awaitsResponse s i = true) :
    exec (.payloadReadError i) s = .next (failSlotRead i s) := by
  rw [exec_payloadReadError, execPayloadReadError, slot]
  simp [awaits]

/-- Settles O17: a response without an entry changes nothing; outside RUNNING the end of a read frees it, and the last one
completes a reset. -/
theorem readOutcomesDiscarded : Obligations.ReadOutcomesDiscarded := by
  unfold Obligations.ReadOutcomesDiscarded
  refine ⟨fun s => ⟨fun e free => ⟨rfl, ?_⟩, fun i x xs free => ⟨descriptorReadReturn_of_none i x free,
    payloadReadReturn_of_none i xs free, descriptorReadError_of_none i free, payloadReadError_of_none i free⟩,
    fun free => ⟨?_, fun c r encoded => ?_⟩⟩, fun s outside => ?_⟩
  · rw [exec_hostReadTimeout]
    simp [free]
  · rw [exec_commandReadError]
    simp [adminReadEntry, awaitsResponse_of_none free]
  · obtain ⟨effect, taken⟩ := exec_of_encoded encoded
    rw [taken, takeCommand_of_none effect free]
  · have up : s.hp.device ≠ .running := by rcases outside with d | d | d <;> simp [d]
    have slotEnds : ∀ {c : Instr} {i : Nat},
        exec c s = .next (completeReset ((s.setRead i none).setSlot i .idle)) → _ := fun next =>
      completeReset_ends (by simp) next
    have adminEnds : ∀ {c : Instr},
        exec c s = .next (completeReset ((s.setRead 8 none).onAp fun b => { b with state := .idle })) → _ := fun next =>
      completeReset_ends (by simp) next
    refine ⟨fun i x ring k slot => ⟨fun awaits => ⟨slotEnds ?_, slotEnds ?_⟩, fun outstanding => slotEnds ?_⟩,
      fun i xs ring r gs j k e slot read => ⟨fun awaits => ⟨fun whole => slotEnds ?_, slotEnds ?_⟩, slotEnds ?_⟩,
      fun reading => ⟨fun awaits => ⟨adminEnds ?_, fun c r encoded => adminEnds ?_⟩, fun outstanding => adminEnds ?_⟩⟩
    · exact descriptorReadReturn_discards i x up slot awaits
    · rw [descriptorReadError_fails i slot awaits, failSlotRead_discards _ up]
    · rw [hostReadTimeout_slot i outstanding, failSlotRead_discards _ up]
    · exact payloadReadReturn_discards i up slot read awaits whole
    · rw [payloadReadError_fails i slot (by simp [awaitsResponse, read, awaits]), failSlotRead_discards _ up]
    · rw [hostReadTimeout_slot i (by simp [read]), failSlotRead_discards _ up]
    · rw [commandReadError_fails awaits, failAdminRead_discards up reading]
    · obtain ⟨effect, taken⟩ := exec_of_encoded encoded
      rw [taken, takeCommand_discards effect up reading awaits]
    · rw [hostReadTimeout_admin outstanding, failAdminRead_discards up reading]

end Sys2Proof.Proofs.HostReads

/-! Completion records, interrupt coalescing and the holdoff timer (R53, R122, R124, R127, R128). -/

namespace Sys2Proof.Proofs.Completions

open Sys2Proof Sys2Proof.Machine Host Sys2Proof.Proofs.Readings

theorem exec_holdoffTimerExpiry (n : Fin 16) (s : State) : exec (.holdoffTimerExpiry n) s =
    .next (if s.hp.device = .running ∧ (s.cq n).timer.isSome then
      (s.setCq n { s.cq n with pending := 0, timer := none }).emit (.interrupt (s.cq n).vector) else s) := by rfl

/-- The posted write of a completion record (R122). -/
def recordWrite (ring : Nat) (tag : BitVec 32) (st : FrameStatus) (sub : Subcode) (cut : Bool) (sent : Nat) (s : State) :
    HostTraffic :=
  .write16 ((s.cq (s.sq ring).cq).base.toNat + 16 * (s.cq (s.sq ring).cq).tail)
    (completionRecord tag (s.sq ring).head ring st sub sent cut (s.cq (s.sq ring).cq).phase)

theorem coalesced_message {c : CqContext} (reached : c.threshold ≤ c.pending + 1) :
    coalesced c = { c with pending := 0, timer := none } := if_pos reached

theorem coalesced_silent {c : CqContext} (below : c.pending + 1 < c.threshold) : coalesced c = { c with
    pending := c.pending + 1, timer := if c.pending = 0 ∧ 0 < c.holdoff then some c.holdoff else c.timer } := by
  unfold coalesced
  rw [if_neg (by omega)]

theorem writeCompletion_hp (ring : Nat) (tag : BitVec 32) (st : FrameStatus) (sub : Subcode) (cut : Bool) (sent : Nat)
    (s : State) : (writeCompletion ring tag st sub cut sent s).hp = { s.hp with
      out := s.hp.out ++ [recordWrite ring tag st sub cut sent s] ++
        (if (s.cq (s.sq ring).cq).threshold ≤ (s.cq (s.sq ring).cq).pending + 1 then
          [.interrupt (s.cq (s.sq ring).cq).vector] else []) } := by
  unfold writeCompletion coalesce
  simp only [State.cq_setCq, if_true]
  split
  · rfl
  · split <;> simp [State.emit, State.onHp, recordWrite]

theorem completeUnadmitted_eq (n : Nat) (tag : BitVec 32) (st : FrameStatus) (sub : Subcode) (s : State) :
    completeUnadmitted n tag st sub s =
      (writeCompletion n tag st sub false 0 s).setSq n { s.sq n with inFlight := (s.sq n).inFlight - 1 } := by
  simp [completeUnadmitted, lowerInFlight]

/-- Settles O18: the record, the coalescing by the threshold, the completion without admission, and the holdoff timer. -/
theorem completionsWrittenAndCoalesced : Obligations.CompletionsWrittenAndCoalesced := by
  unfold Obligations.CompletionsWrittenAndCoalesced
  refine ⟨⟨fun ring tag st sub cut sent s => ?_, fun n tag st sub s => ?_⟩, fun n s => ⟨fun running timer => ?_,
    fun idle => ?_⟩⟩
  · refine ⟨by simp, by simp, by simp, by simp, by simp, by simp, by simp, fun m other => by simp [other],
      fun reached => ⟨?_, ?_⟩, fun below => ⟨?_, ?_⟩⟩
    · rw [writeCompletion_cq, if_pos rfl]
      exact coalesced_message reached
    · rw [writeCompletion_hp, if_pos reached]
      simp [recordWrite]
    · rw [writeCompletion_cq, if_pos rfl]
      exact coalesced_silent below
    · rw [writeCompletion_hp, if_neg (by omega)]
      simp [recordWrite]
  · rw [completeUnadmitted_eq]
    exact ⟨rfl, rfl, rfl, fun m other => by simp [other], by simp, by simp, by simp, by simp, by simp⟩
  · rw [exec_holdoffTimerExpiry, if_pos ⟨running, timer⟩]
  · rw [exec_holdoffTimerExpiry, if_neg fun ⟨running, timer⟩ =>
      idle.elim (· running) fun none => by simp [none] at timer]

end Sys2Proof.Proofs.Completions

/-! Descriptors taken: the checks in their order, the BM's answer to an admission request, and the start of an admitted
frame's fetch (R12, R13, R49, R52 to R55, R57). -/

namespace Sys2Proof.Proofs.Descriptors

open Sys2Proof Sys2Proof.Machine Host Sys2Proof.Proofs.Readings

theorem cellNeed_eq (length : Nat) : cellNeed length = (length + 255) / 256 := rfl

/-! ### The five checks -/

/-- Check 4 as the spec words it (R52). -/
theorem segmentsOk_iff (d : Descriptor) : segmentsOk d = true ↔
    1 ≤ d.segmentCount ∧ d.segmentCount ≤ 4 ∧ (∀ g ∈ d.segments.take d.segmentCount, g.length ≠ 0) ∧
      ((d.segments.take d.segmentCount).map Segment.length).sum = d.length := by
  simp [segmentsOk, Descriptor.used, and_assoc]

section
variable {s : State} {d : Descriptor}

theorem invalidSubcode_badKind (kind : d.kind ≠ 1) : invalidSubcode s d = some .badKind := if_pos kind

theorem invalidSubcode_badFlow (kind : d.kind = 1) (flow : 127 < d.flow ∨ (s.flow d.flow).state = .unconfigured) :
    invalidSubcode s d = some .badFlow := by
  rw [invalidSubcode, if_neg (by simp [kind]), if_pos flow]

variable (kind : d.kind = 1) (flow : d.flow ≤ 127) (configured : (s.flow d.flow).state ≠ .unconfigured)
include kind flow configured

/-- The checks from the third on. -/
theorem invalidSubcode_later : invalidSubcode s d =
    if d.length < 1 ∨ 16384 < d.length then some .badLength
    else if !segmentsOk d then some .badSegments
    else if (s.flow d.flow).cap < cellNeed d.length then some .exceedsCap
    else none := by
  rw [invalidSubcode, if_neg (by simp [kind]), if_neg (by simp [flow, configured])]

theorem invalidSubcode_badLength (length : d.length = 0 ∨ 16384 < d.length) : invalidSubcode s d = some .badLength := by
  rw [invalidSubcode_later kind flow configured, if_pos (by omega)]

variable (low : 1 ≤ d.length) (high : d.length ≤ 16384)
include low high

theorem invalidSubcode_badSegments (segments : segmentsOk d ≠ true) : invalidSubcode s d = some .badSegments := by
  rw [invalidSubcode_later kind flow configured, if_neg (by omega), if_pos (by simpa using segments)]

theorem invalidSubcode_exceedsCap (segments : segmentsOk d = true) (cap : (s.flow d.flow).cap < (d.length + 255) / 256) :
    invalidSubcode s d = some .exceedsCap := by
  rw [invalidSubcode_later kind flow configured, if_neg (by omega), if_neg (by simp [segments]), cellNeed_eq, if_pos cap]

end

theorem invalidSubcode_none {s : State} {d : Descriptor} (accepts : s.accepts d) : invalidSubcode s d = none := by
  obtain ⟨kind, flow, configured, low, high, one, four, sizes, sum, cap⟩ := accepts
  rw [invalidSubcode_later kind flow configured, if_neg (by omega),
    if_neg (by simp [(segmentsOk_iff d).mpr ⟨one, four, sizes, sum⟩]), cellNeed_eq, if_neg (Nat.not_lt.mpr cap)]

/-! ### The admission request -/

section
variable (n : Nat) (d : Descriptor) (need : Nat) {s : State}

theorem requestAdmission_notReady (state : (s.flow d.flow).state ≠ .enabled) :
    requestAdmission n d need s = (.notReady, s) := if_pos state

theorem requestAdmission_noRoom (state : (s.flow d.flow).state = .enabled) (full : s.noRoom d.flow need) :
    requestAdmission n d need s = (.noRoom, s) := by
  unfold requestAdmission
  dsimp only
  rw [if_neg (by simp [state])]
  rcases full with cap | cells | records
  · rw [if_pos cap]
  · rw [if_pos cells, ite_self]
  · rw [records, ite_self, ite_self]

theorem requestAdmission_admitted (state : (s.flow d.flow).state = .enabled) (room : ¬ s.noRoom d.flow need)
    (clean : s.eccClean) {r : Nat} {rest : List Nat} (records : s.bm.freeRecords = r :: rest) :
    requestAdmission n d need s = (.admitted r, admitRecord n d need r s) := by
  simp only [State.noRoom, not_or] at room
  obtain ⟨cap, cells, -⟩ := room
  unfold requestAdmission
  dsimp only
  rw [if_neg (by simp [state]), if_neg cap, if_neg cells, records]
  dsimp only
  rw [checkRecord_clean r clean.2.2]
  dsimp only
  rw [checkLinks_clean _ clean.2.1]

end

/-! ### The start of the fetch -/

@[simp] theorem freeRead_reads (i : Nat) (s : State) : (∀ q, (freeRead i s).frame q = s.frame q) ∧
    (∀ f, (freeRead i s).flow f = s.flow f) ∧ (∀ c, (freeRead i s).linkEntry c = s.linkEntry c) ∧
    (∀ n, (freeRead i s).sq n = s.sq n) ∧ (∀ j, (freeRead i s).slot j = s.slot j) ∧
    (∀ n, (freeRead i s).cq n = s.cq n) ∧ (∀ l, (freeRead i s).link l = s.link l) ∧
    ∀ l, (freeRead i s).sched l = s.sched l :=
  ⟨fun _ => rfl, fun _ => rfl, fun _ => rfl, fun _ => rfl, fun _ => rfl, fun _ => rfl, fun _ => rfl, fun _ => rfl⟩

@[simp] theorem freeRead_read (i : Nat) (s : State) (j : Nat) :
    (freeRead i s).read j = if j = i then none else s.read j := State.read_setRead ..

@[simp] theorem admitRecord_read (n : Nat) (d : Descriptor) (need r : Nat) (s : State) (j : Nat) :
    (admitRecord n d need r s).read j = s.read j := by
  rw [State.read, State.read, (admitRecord_frame n d need r s).1]

@[simp] theorem freeRead_out (i : Nat) (s : State) : (freeRead i s).hp.out = s.hp.out := rfl

section
variable (i n r : Nat) (gs : List Segment) (s : State)

theorem beginPayload_cons (g : Segment) : beginPayload i n r (g :: gs) s =
    issuePayload i g 0 (s.setSlot i (.payload n r (g :: gs) 0 0)) := rfl

theorem beginPayload_dfu : (beginPayload i n r gs s).dfu = (s.setSlot i (.payload n r gs 0 0)).dfu := by
  unfold beginPayload
  dsimp only
  split <;> simp

@[simp] theorem beginPayload_slot (j : Nat) : (beginPayload i n r gs s).slot j =
    if j = i then .payload n r gs 0 0 else s.slot j := by
  rw [State.slot, beginPayload_dfu]
  exact State.slot_setSlot ..

@[simp] theorem beginPayload_held : (beginPayload i n r gs s).dfu.held = s.dfu.held := by
  rw [beginPayload_dfu]
  rfl

@[simp] theorem beginPayload_reads : (∀ q, (beginPayload i n r gs s).frame q = s.frame q) ∧
    (∀ f, (beginPayload i n r gs s).flow f = s.flow f) ∧ (∀ c, (beginPayload i n r gs s).linkEntry c = s.linkEntry c) ∧
    ∀ m, (beginPayload i n r gs s).sq m = s.sq m :=
  ⟨fun _ => State.frame_congr _ _ _ (by simp), fun _ => State.flow_congr _ _ _ (by simp),
    fun _ => State.linkEntry_congr _ _ _ (by simp),
    fun _ => State.sq_congr _ _ _ (by rw [beginPayload_dfu]; rfl)⟩

end

/-- The first read of a fetch (R59). -/
theorem beginPayload_out (i n r : Nat) (g : Segment) (gs : List Segment) (s : State) :
    (beginPayload i n r (g :: gs) s).hp.out = s.hp.out ++ [.readRequest i g.address (min 512 g.length)] := rfl

theorem beginPayload_read (i n r : Nat) (g : Segment) (gs : List Segment) (s : State) (j : Nat) :
    (beginPayload i n r (g :: gs) s).read j = if j = i then
      some { address := g.address, length := min 512 g.length, timer := 10000, cutOff := false } else s.read j := by
  have same : (beginPayload i n r (g :: gs) s).read j = (s.setRead i (some
    { address := g.address, length := min 512 g.length, timer := 10000, cutOff := false })).read j := rfl
  rw [same, State.read_setRead]

/-- The start of an admitted frame's fetch: its first read, and the ES where the record is the queue's head (R89). -/
theorem startAdmitted_eq (i n r : Nat) (d : Descriptor) {u : State} (flow : (u.frame r).flow = d.flow) :
    startAdmitted i n r d u = if (u.flow d.flow).queue.head? = some r then
      consider (u.flow d.flow).link (beginPayload i n r d.used u) else beginPayload i n r d.used u := by
  simp [startAdmitted, isHead, flow]

/-! ### A descriptor read that returns -/

theorem exec_descriptorReadReturn_running {s : State} {i : Fin 8} {n k : Nat} (x : BitVec 512)
    (running : s.hp.device = .running) (slot : s.slot i = .descRead n k) (awaits : awaitsResponse s i = true) :
    exec (.descriptorReadReturn i x []) s = .next (returnDescriptor i n k x (freeRead i s)) := by
  rw [HostReads.exec_descriptorReadReturn, execDescriptorReadReturn, strike_nil, slot]
  simp [awaits, running]

theorem returnDescriptor_active (i n k : Nat) (x : BitVec 512) {s : State} (active : (s.sq n).state = .active) :
    returnDescriptor i n k x s = takeDescriptor i n k (decodeDescriptor x) s := by
  rw [returnDescriptor, active]

section
variable (i n k : Nat) {d : Descriptor} {s : State}

theorem takeDescriptor_invalid {code : Subcode} (invalid : invalidSubcode s d = some code) :
    takeDescriptor i n k d s =
      (completeUnadmitted n d.tag .invalidDescriptor code (takeHead n s)).setSlot i .idle := by
  rw [takeDescriptor, invalid]

variable (accepts : s.accepts d)
include accepts

theorem takeDescriptor_notReady (state : (s.flow d.flow).state ≠ .enabled) : takeDescriptor i n k d s =
    (completeUnadmitted n d.tag .flowNotReady .none (takeHead n s)).setSlot i .idle := by
  rw [takeDescriptor, invalidSubcode_none accepts]
  dsimp only
  rw [requestAdmission_notReady n d _ state]

theorem takeDescriptor_noRoom (state : (s.flow d.flow).state = .enabled)
    (full : s.noRoom d.flow ((d.length + 255) / 256)) : takeDescriptor i n k d s =
    match (s.flow d.flow).policy with
    | .discard => (completeUnadmitted n d.tag .droppedNoBuffer .none (takeHead n s)).setSlot i .idle
    | .hold => (holdDescriptor n { descriptor := d, slot := k, need := cellNeed d.length } (takeHead n s)).setSlot i .idle := by
  rw [takeDescriptor, invalidSubcode_none accepts]
  dsimp only
  rw [cellNeed_eq, requestAdmission_noRoom n d _ state full] <;> rfl

theorem takeDescriptor_admitted (state : (s.flow d.flow).state = .enabled)
    (room : ¬ s.noRoom d.flow ((d.length + 255) / 256)) (clean : s.eccClean) {r : Nat} {rest : List Nat}
    (records : s.bm.freeRecords = r :: rest) : takeDescriptor i n k d s =
    startAdmitted i n r d (takeHead n (admitRecord n d ((d.length + 255) / 256) r s)) := by
  rw [takeDescriptor, invalidSubcode_none accepts]
  dsimp only
  rw [cellNeed_eq, requestAdmission_admitted n d _ state room clean records]

end

/-- Settles O20: the first failing check decides; past the checks, the flow's state, the room and the policy. -/
theorem descriptorNotAdmitted : Obligations.DescriptorNotAdmitted := by
  unfold Obligations.DescriptorNotAdmitted
  intro s i n k x running slot awaits active
  have returned : exec (.descriptorReadReturn i x []) s = .next (takeDescriptor i n k (decodeDescriptor x) (freeRead i s)) := by
    rw [exec_descriptorReadReturn_running x running slot awaits, returnDescriptor_active _ _ _ _ (by simpa [freeRead] using active)]
  have head : takeHead n (freeRead i s) =
      (s.setRead i none).setSq n { s.sq n with head := ((s.sq n).head + 1) % (s.sq n).size, reading := false } := rfl
  rw [returned, ← head]
  generalize decodeDescriptor x = d
  have ended : ∀ {code}, invalidSubcode (freeRead i s) d = some code →
      Outcome.next (takeDescriptor i n k d (freeRead i s)) = (.next ((completeUnadmitted n d.tag .invalidDescriptor code
        (takeHead n (freeRead i s))).setSlot i .idle) : Outcome State Fault Refusal) := fun invalid =>
    congrArg Outcome.next (takeDescriptor_invalid i n k invalid)
  refine ⟨fun kind => ended (invalidSubcode_badKind kind), fun kind => ⟨fun flow => ended (invalidSubcode_badFlow kind flow),
    fun flow configured => ⟨fun length => ended (invalidSubcode_badLength kind flow configured length), fun low high =>
      ⟨fun segments => ended (invalidSubcode_badSegments kind flow configured low high
        (mt (segmentsOk_iff d).mp segments)), fun segments cap => ended (invalidSubcode_exceedsCap kind flow configured low
        high ((segmentsOk_iff d).mpr segments) cap)⟩⟩⟩, fun accepts => ⟨fun state => ?_, fun state full =>
      ⟨fun policy => ?_, fun policy => ?_⟩⟩⟩
  · exact congrArg Outcome.next (takeDescriptor_notReady i n k accepts state)
  · refine congrArg Outcome.next ((takeDescriptor_noRoom (s := freeRead i s) i n k accepts state full).trans ?_)
    rw [show ((freeRead i s).flow d.flow).policy = _ from policy]
  · refine congrArg Outcome.next ((takeDescriptor_noRoom (s := freeRead i s) i n k accepts state full).trans ?_)
    rw [show ((freeRead i s).flow d.flow).policy = _ from policy]
    rfl

/-! ### The cells an admission takes -/

/-- A list of cells that the link entries chain is what an allocation reads off. -/
theorem chainFrom_of_entries {s : State} {cells : List Nat} {c : Nat} (head : cells.head? = some c)
    (chained : ∀ j, j + 1 < cells.length → s.linkEntry (cells.getD j 0) = cells[j + 1]?) :
    chainFrom s cells.length c = cells := by
  induction cells generalizing c with
  | nil => cases head
  | cons a cells ih =>
    obtain rfl : a = c := by simpa using head
    rw [List.length_cons, chainFrom]
    cases cells with
    | nil => cases s.linkEntry a <;> rfl
    | cons b cells =>
      have entry : s.linkEntry a = some b := by simpa using chained 0 (by simp)
      rw [entry]
      dsimp only
      rw [ih rfl fun j inside => by simpa using chained (j + 1) (by simpa using inside)]

theorem allocationCells_of_entries {s : State} {cells : List Nat} (some_cell : 0 < cells.length)
    (head : s.bm.freeHead = cells.head?)
    (chained : ∀ j, j + 1 < cells.length → s.linkEntry (cells.getD j 0) = cells[j + 1]?) :
    allocationCells s cells.length = cells := by
  cases cells with
  | nil => cases some_cell
  | cons c cells =>
    rw [allocationCells, head]
    exact chainFrom_of_entries rfl chained

/-- Settles O21: the admission's changes, read off the state in which the fetch starts. -/
theorem descriptorAdmitted : Obligations.DescriptorAdmitted := by
  unfold Obligations.DescriptorAdmitted
  intro s i n k r x rest cells g gs running slot awaits active clean records
  have returned : exec (.descriptorReadReturn i x []) s = .next (takeDescriptor i n k (decodeDescriptor x) (freeRead i s)) := by
    rw [exec_descriptorReadReturn_running x running slot awaits, returnDescriptor_active _ _ _ _ (by simpa [freeRead] using active)]
  rw [returned]
  dsimp only
  generalize decodeDescriptor x = d
  intro accepts state cap free segments length head chained
  have room : ¬ (freeRead i s).noRoom d.flow ((d.length + 255) / 256) := by
    rintro (above | few | none)
    · exact absurd (show (s.flow d.flow).cap < (s.flow d.flow).held + (d.length + 255) / 256 from above) (by omega)
    · exact absurd (show s.bm.freeCount < (d.length + 255) / 256 from few) (by omega)
    · exact absurd (records.symm.trans none) (by simp)
  have low : 1 ≤ d.length := accepts.2.2.2.1
  have taken : allocationCells (freeRead i s) ((d.length + 255) / 256) = cells := by
    rw [← length]
    exact allocationCells_of_entries (by omega) head (by rw [length]; exact chained)
  have used : d.used = g :: gs := segments
  have admitted := takeDescriptor_admitted (s := freeRead i s) i n k accepts state room clean records
  rw [admitted, startAdmitted_eq i n r d (by simp [admittedRecord])]
  clear admitted
  generalize (d.length + 255) / 256 = need at *
  refine ⟨beginPayload i n r d.used (takeHead n (admitRecord n d need r (freeRead i s))), by simp, ?_⟩
  rw [used]
  refine ⟨by simp [admittedRecord, taken], fun q other => by simp [other], by simp,
    fun m other => by simp [other], by simp [records], by simp, by simp, by simp [taken],
    fun more => by simpa [taken] using fun few => absurd more (Nat.not_lt.mpr few),
    fun c other => by simp [taken, show c ≠ cells.getLast?.getD 0 by simpa using other], by simp,
    fun j other => ⟨by simp [other], by simp [beginPayload_read, other]⟩, by simp [beginPayload_read],
    by simp [advance], fun m other => by simp [other], by simp [takeHead],
    by simp [beginPayload_out], by simp, by simp, by simp, by simp, by simp⟩

end Sys2Proof.Proofs.Descriptors

/-! The fetch slots' grants and retries, and the descriptor reads that leave nothing taken (R45 to R48, R50, R51, R57,
R64). -/

namespace Sys2Proof.Proofs.FetchSlots

open Sys2Proof Sys2Proof.Machine Host Sys2Proof.Proofs.Readings Sys2Proof.Proofs.Descriptors

theorem exec_fetchSlotGrant (s : State) : exec .fetchSlotGrant s = execFetchSlotGrant s := by rfl
theorem exec_retry (us : List Upset) (s : State) : exec (.retry us) s = execRetry us s := by rfl

/-! ### The three searches -/

theorem idleSlot_first {s : State} {i : Nat} (inside : i < 8) (idle : s.slot i = .idle)
    (first : ∀ j < i, s.slot j ≠ .idle) : idleSlot s = some i :=
  List.find?_range_eq_some.mpr ⟨by simp [idle], List.mem_range.mpr inside, fun j below => by simp [first j below]⟩

theorem idleSlot_some {s : State} {i : Nat} (inside : i < 8) (idle : s.slot i = .idle) : ∃ j, idleSlot s = some j := by
  refine Option.isSome_iff_exists.mp (List.find?_isSome.mpr ⟨i, List.mem_range.mpr inside, by simp [idle]⟩)

theorem idleSlot_none {s : State} (busy : ∀ i < 8, s.slot i ≠ .idle) : idleSlot s = none :=
  List.find?_eq_none.mpr fun i among => by simp [busy i (List.mem_range.mp among)]

/-- An entry that may be retried (R46; log entry 33). -/
def waits (e : HeldEntry) : Prop := e.ready = true ∧ e.stopped = false

theorem retryClaim_none {s : State} (unready : ∀ e ∈ s.dfu.held, e.ready = false ∨ e.stopped = true) :
    retryClaim s = none :=
  List.find?_eq_none.mpr fun e among => by rcases unready e among with h | h <;> simp [h]

theorem retryClaim_some {s : State} (some_waits : ∃ e ∈ s.dfu.held, e.ready = true ∧ e.stopped = false) :
    retryClaim s ≠ none := by
  obtain ⟨e, among, ready, running⟩ := some_waits
  exact fun none => List.find?_eq_none.mp none e among (by simp [ready, running])

theorem retryClaim_first {s : State} {before after : List HeldEntry} {e : HeldEntry} (held : s.dfu.held = before ++ e :: after)
    (earlier : ∀ x ∈ before, x.ready = false ∨ x.stopped = true) (ready : e.ready = true) (running : e.stopped = false) :
    retryClaim s = some e :=
  List.find?_eq_some_iff_append.mpr ⟨by simp [ready, running], before, after, held, fun x among => by
    rcases earlier x among with h | h <;> simp [h]⟩

theorem mayRead_iff_claims (s : State) (n : Nat) : mayRead s n = true ↔ s.claims n := by
  simp only [mayRead, State.claims, Bool.and_eq_true, decide_eq_true_eq, Bool.not_eq_true', Option.isNone_iff_eq_none,
    and_assoc]
  rfl

theorem readClaim_first {s : State} {k : Nat} (inside : k < 32) (claims : s.claims ((s.dfu.lastRing + 1 + k) % 32))
    (first : ∀ j < k, ¬ s.claims ((s.dfu.lastRing + 1 + j) % 32)) :
    readClaim s = some ((s.dfu.lastRing + 1 + k) % 32) := by
  rw [readClaim, List.find?_map]
  refine Option.map_eq_some_iff.mpr ⟨k, List.find?_range_eq_some.mpr ⟨?_, List.mem_range.mpr inside, fun j below => ?_⟩, rfl⟩
  · exact (mayRead_iff_claims ..).mpr claims
  · simpa [sqTotal] using mt (mayRead_iff_claims ..).mp (first j below)

theorem readClaim_none {s : State} (denied : ∀ n < 32, ¬ s.claims n) : readClaim s = none := by
  refine List.find?_eq_none.mpr fun n among => ?_
  obtain ⟨k, -, rfl⟩ := List.mem_map.mp among
  exact mt (mayRead_iff_claims ..).mp (denied _ (Nat.mod_lt _ (by decide)))

/-! ### FETCH_SLOT_GRANT and RETRY -/

theorem fetchSlotGrant_idles {s : State} (denied : s.hp.device ≠ .running ∨ retryClaim s ≠ none ∨ idleSlot s = none ∨
    readClaim s = none) : exec .fetchSlotGrant s = .next s := by
  rw [exec_fetchSlotGrant, execFetchSlotGrant]
  split
  · next granted =>
    obtain ⟨running, noRetry⟩ := granted
    rcases denied with up | retry | slot | claim
    · exact absurd running up
    · exact absurd noRetry retry
    · rw [slot]
    · rw [claim]
      cases idleSlot s <;> rfl
  · rfl

theorem fetchSlotGrant_grants {s : State} {i n : Nat} (running : s.hp.device = .running) (noRetry : retryClaim s = none)
    (slot : idleSlot s = some i) (claim : readClaim s = some n) : exec .fetchSlotGrant s = .next (grantRead i n s) := by
  rw [exec_fetchSlotGrant, execFetchSlotGrant, if_pos ⟨running, noRetry⟩, slot, claim]

theorem retry_idles {s : State} (denied : s.hp.device ≠ .running ∨ retryClaim s = none ∨ idleSlot s = none) :
    exec (.retry []) s = .next s := by
  rw [exec_retry, execRetry, strike_nil]
  split
  · next running =>
    rcases denied with up | claim | slot
    · exact absurd running up
    · rw [claim]
      cases idleSlot s <;> rfl
    · rw [slot]
  · rfl

theorem retry_retries {s : State} {i : Nat} {e : HeldEntry} {h : HeldCopy} (running : s.hp.device = .running)
    (slot : idleSlot s = some i) (claim : retryClaim s = some e) (held : (s.sq e.ring).held = some h) :
    exec (.retry []) s = .next (retryHeld i e.ring h s) := by
  rw [exec_retry, execRetry, strike_nil]
  rw [if_pos running, slot, claim]
  dsimp only
  rw [held]

/-! ### The outcomes of a retry -/

section
variable (i n : Nat) (h : HeldCopy) {s : State}

theorem retryHeld_notReady (state : (s.flow h.descriptor.flow).state ≠ .enabled) :
    retryHeld i n h s = completeUnadmitted n h.descriptor.tag .flowNotReady .none (clearHeld n s) := by
  rw [retryHeld]
  rw [requestAdmission_notReady n _ _ state]

theorem retryHeld_noRoom (state : (s.flow h.descriptor.flow).state = .enabled)
    (full : s.noRoom h.descriptor.flow h.need) : retryHeld i n h s =
    if (s.flow h.descriptor.flow).cap < h.need then
      completeUnadmitted n h.descriptor.tag .invalidDescriptor .exceedsCap (clearHeld n s)
    else match (s.flow h.descriptor.flow).policy with
      | .discard => completeUnadmitted n h.descriptor.tag .droppedNoBuffer .none (clearHeld n s)
      | .hold => holdDescriptor n h (clearHeld n s) := by
  rw [retryHeld]
  rw [requestAdmission_noRoom n _ _ state full] <;> rfl

theorem retryHeld_admitted (state : (s.flow h.descriptor.flow).state = .enabled)
    (room : ¬ s.noRoom h.descriptor.flow h.need) (clean : s.eccClean) {r : Nat} {rest : List Nat}
    (records : s.bm.freeRecords = r :: rest) : retryHeld i n h s =
    startAdmitted i n r h.descriptor (clearHeld n (admitRecord n h.descriptor h.need r s)) := by
  rw [retryHeld]
  rw [requestAdmission_admitted n _ _ state room clean records]

end

/-- A descriptor held again is as it was, but at the tail of the held list with the mark no (R55, R57). -/
theorem heldAgain_sq {n : Nat} {h : HeldCopy} {s : State} (held : (s.sq n).held = some h) (m : Nat) :
    (holdDescriptor n h (clearHeld n s)).sq m = s.sq m := by
  by_cases here : m = n
  · subst here
    simp [← held]
  · simp [here]

/-- Settles O19: the grant's searches, and a retry by the BM's answer. -/
theorem fetchSlotGrantedOrRetried : Obligations.FetchSlotGrantedOrRetried := by
  unfold Obligations.FetchSlotGrantedOrRetried
  refine ⟨fun s => ⟨fun denied => fetchSlotGrant_idles (denied.imp_right fun waits => .inl (retryClaim_some waits)),
    fun denied => retry_idles (denied.imp_right fun none => none.imp retryClaim_none idleSlot_none)⟩,
    fun s running none => ⟨fun i inside idle first k among claims firstClaim => ?_, fun denied => ?_⟩, ?_⟩
  · exact fetchSlotGrant_grants running (retryClaim_none none) (idleSlot_first inside idle first)
      (readClaim_first among claims firstClaim)
  · exact fetchSlotGrant_idles (.inr (.inr (denied.imp idleSlot_none readClaim_none)))
  · intro s before after e h i running inside idle held earlier ready going copy
    have claim := retryClaim_first held earlier ready going
    obtain ⟨j, slot⟩ := idleSlot_some inside idle
    have retried := retry_retries running slot claim copy
    dsimp only
    refine ⟨fun state => by rw [retried, retryHeld_notReady j e.ring h state]; rfl, fun state full => ?_,
      fun state room clean first => ?_⟩
    · rw [retried, retryHeld_noRoom j e.ring h state full]
      refine ⟨fun above => by rw [if_pos above]; rfl, fun fits policy => ?_, fun fits policy => ?_⟩
      · rw [if_neg (Nat.not_lt.mpr fits), policy]
        rfl
      · rw [if_neg (Nat.not_lt.mpr fits), policy]
        exact ⟨_, rfl, heldAgain_sq copy, rfl, rfl, rfl, rfl, rfl, rfl, rfl, rfl, rfl, rfl⟩
    · obtain ⟨r, rest, records⟩ : ∃ r rest, s.bm.freeRecords = r :: rest :=
        List.exists_cons_of_ne_nil fun empty => room (.inr (.inr empty))
      rw [retry_retries running (idleSlot_first inside idle first) claim copy,
        retryHeld_admitted i e.ring h state room clean records, startAdmitted_eq i e.ring r h.descriptor (by simp [admittedRecord])]
      refine ⟨beginPayload i e.ring r h.descriptor.used (clearHeld e.ring (admitRecord e.ring h.descriptor h.need r s)), r,
        rest, records, by simp [records], by simp, by simp [admittedRecord], by simp [admittedRecord],
        by simp [admittedRecord], by simp [admittedRecord], by simp [admittedRecord], by simp [admittedRecord],
        fun q other => by simp [other], by simp, by simp, by simp, by simp [Descriptor.used], fun j other => by simp [other],
        by simp, fun m other => by simp [other], by simp [clearHeld], by simp, by simp, by simp, by simp, by simp⟩

/-! ### Descriptor reads that leave nothing taken -/

theorem failSlotRead_descriptor {s : State} {i n k : Nat} (running : s.hp.device = .running) (slot : s.slot i = .descRead n k) :
    failSlotRead i s = failDescriptor i n k (freeRead i s) := by
  simp [failSlotRead, running, slot]

theorem returnDescriptor_deleting (i n k : Nat) (x : BitVec 512) {s : State} (deleting : (s.sq n).state = .deleting) :
    returnDescriptor i n k x s = endDeletion n (releaseRead i n s) := by
  rw [returnDescriptor, deleting]

theorem failDescriptor_deleting (i n k : Nat) {s : State} (deleting : (s.sq n).state = .deleting) :
    failDescriptor i n k s = endDeletion n (releaseRead i n s) := by
  simp [failDescriptor, deleting]

theorem failDescriptor_active (i n k : Nat) {s : State} (active : (s.sq n).state = .active) : failDescriptor i n k s =
    raiseNotice (.ringError n k) ((releaseRead i n s).setSq n { (releaseRead i n s).sq n with state := .error }) := by
  simp [failDescriptor, active]

/-- A deletion whose ring has nothing left in flight ends with its command (R64). -/
theorem endDeletion_owed {s : State} {n : Nat} {tag : BitVec 16} {before after : List Outstanding}
    (deleting : (s.sq n).state = .deleting) (empty : (s.sq n).inFlight = 0)
    (owes : s.owes { operation := .deleteSq n, tag := tag } before after) : endDeletion n s =
    adminComplete tag 0x02 .ok 0 ((s.setSq n SqContext.reset).onAp fun b => { b with outstanding := before ++ after }) := by
  rw [endDeletion, if_pos ⟨deleting, empty⟩]
  exact endLong_owed (s := s.setSq n SqContext.reset) .ok 0 owes

theorem endDeletion_waits {s : State} {n : Nat} (left : (s.sq n).inFlight ≠ 0) : endDeletion n s = s :=
  if_neg fun ⟨_, empty⟩ => left empty

/-- What a descriptor read released without a record leaves, whatever becomes of its ring's context. -/
theorem released_reads {s u : State} (i : Fin 8) {n : Nat} {x : SqContext} (here : u.sq n = x)
    (others : ∀ m, m ≠ n → u.sq m = s.sq m) (slots : u.dfu.slots = (releaseRead i n (freeRead i s)).dfu.slots)
    (held : u.dfu.held = s.dfu.held) (hp : u.hp = (releaseRead i n (freeRead i s)).hp)
    (cu : u.cu = (releaseRead i n (freeRead i s)).cu)
    (rest : u.bm = s.bm ∧ u.lu = s.lu ∧ u.es = s.es ∧ u.ap = s.ap ∧ u.ec = s.ec) :
    u.sq n = x ∧ (∀ m, m ≠ n → u.sq m = s.sq m) ∧ u.slot i = .idle ∧ u.read i = none ∧
    (∀ j, j ≠ i.val → u.slot j = s.slot j ∧ u.read j = s.read j) ∧
    u.cq (s.sq n).cq = { s.cq (s.sq n).cq with reserved := (s.cq (s.sq n).cq).reserved - 1 } ∧
    (∀ m, m ≠ (s.sq n).cq → u.cq m = s.cq m) ∧
    u.hp.out = s.hp.out ∧ u.dfu.held = s.dfu.held ∧ u.bm = s.bm ∧ u.lu = s.lu ∧ u.es = s.es ∧ u.ap = s.ap ∧
    u.ec = s.ec := by
  have slot : ∀ j, u.slot j = (releaseRead i n (freeRead i s)).slot j := fun j => State.slot_congr _ _ _ slots
  have read : ∀ j, u.read j = (releaseRead i n (freeRead i s)).read j := fun j => by rw [State.read, State.read, hp]
  have cq : ∀ m, u.cq m = (releaseRead i n (freeRead i s)).cq m := fun m => by rw [State.cq, State.cq, cu]
  refine ⟨here, others, by simp [slot], by simp [read], fun j other => by simp [slot, read, other], by simp [cq],
    fun m other => by simp [cq, other], by rw [hp]; simp, held, rest⟩

theorem released_held (i n : Nat) (s : State) : (releaseRead i n s).dfu.held = s.dfu.held := by
  simp [releaseRead, lowerInFlight, cqRelease, State.setSq, State.setSlot]

/-- The three ends of a descriptor read (R50, R51). -/
theorem descriptorEnds {s : State} {i : Fin 8} {n k : Nat} (x : BitVec 512) (running : s.hp.device = .running)
    (slot : s.slot i = .descRead n k) (awaits : awaitsResponse s i = true) :
    exec (.descriptorReadReturn i x []) s = .next (returnDescriptor i n k x (freeRead i s)) ∧
    exec (.descriptorReadError i) s = .next (failDescriptor i n k (freeRead i s)) ∧
    exec (.hostReadTimeout (i.castLE (by decide))) s = .next (failDescriptor i n k (freeRead i s)) := by
  have outstanding : (s.read i).isSome = true := by
    cases read : s.read i with
    | none => simp [awaitsResponse, read] at awaits
    | some e => rfl
  refine ⟨exec_descriptorReadReturn_running x running slot awaits, ?_, ?_⟩
  · rw [HostReads.descriptorReadError_fails i slot awaits, failSlotRead_descriptor running slot]
  · rw [HostReads.hostReadTimeout_slot i outstanding, failSlotRead_descriptor running slot]

/-- Settles O22: the reservation released, and then the deletion, its end, or the ring in ERROR. -/
theorem descriptorReadDroppedOrFailed : Obligations.DescriptorReadDroppedOrFailed := by
  unfold Obligations.DescriptorReadDroppedOrFailed
  intro s i n k x running slot awaits
  obtain ⟨returned, failed, timedOut⟩ := descriptorEnds x running slot awaits
  rw [returned, failed, timedOut]
  have count : ((releaseRead i n (freeRead i s)).sq n).inFlight = (s.sq n).inFlight - 1 := by simp
  have state : ((releaseRead i n (freeRead i s)).sq n).state = (s.sq n).state := by simp
  dsimp only
  refine ⟨fun deleting notOne notNone => ?_, fun deleting few tag before after owes => ?_, fun active => ?_⟩
  · rw [returnDescriptor_deleting _ _ _ _ (by simpa using deleting), failDescriptor_deleting _ _ _ (by simpa using deleting),
      endDeletion_waits (by rw [count]; omega)]
    refine ⟨_, released_reads i ?_ ?_ rfl ?_ rfl rfl ?_, rfl, rfl, rfl⟩
    · simp [deleting]
    · exact fun m other => by simp [other]
    · rw [released_held]
      rfl
    · simp
  · rw [returnDescriptor_deleting _ _ _ _ (by simpa using deleting), failDescriptor_deleting _ _ _ (by simpa using deleting),
      endDeletion_owed (state.trans deleting) (by rw [count]; omega) (by simpa [State.owes] using owes)]
    refine ⟨(releaseRead i n (freeRead i s)).setSq n SqContext.reset, released_reads i ?_ ?_ rfl ?_ rfl rfl ?_, rfl, rfl,
      rfl⟩
    · simp
    · exact fun m other => by simp [other]
    · show (releaseRead i n (freeRead i s)).dfu.held = _
      rw [released_held]
      rfl
    · simp
  · rw [failDescriptor_active _ _ _ (by simpa using active)]
    refine ⟨(releaseRead i n (freeRead i s)).setSq n { (releaseRead i n (freeRead i s)).sq n with state := .error },
      released_reads i ?_ ?_ rfl ?_ rfl rfl ?_, rfl, rfl⟩
    · simp
    · exact fun m other => by simp [other]
    · show (releaseRead i n (freeRead i s)).dfu.held = _
      rw [released_held]
      rfl
    · simp

end Sys2Proof.Proofs.FetchSlots

/-! The ends of payload reads, fetch ends and retirements (R14 to R16, R37, R59, R60, R64, R111, R114 to R116). -/

namespace Sys2Proof.Proofs.Retirement

open Sys2Proof Sys2Proof.Machine Host Sys2Proof.Proofs.Readings Sys2Proof.Proofs.Descriptors

/-! ### Readings across the blocks without datapath tables -/

@[simp] theorem onAp_reads (s : State) (f : ApBlock → ApBlock) : (∀ q, (s.onAp f).frame q = s.frame q) ∧
    (∀ k, (s.onAp f).flow k = s.flow k) ∧ (∀ c, (s.onAp f).linkEntry c = s.linkEntry c) ∧
    (∀ n, (s.onAp f).sq n = s.sq n) ∧ (∀ i, (s.onAp f).slot i = s.slot i) ∧ (∀ i, (s.onAp f).read i = s.read i) ∧
    (∀ n, (s.onAp f).cq n = s.cq n) ∧ (∀ l, (s.onAp f).link l = s.link l) ∧ ∀ l, (s.onAp f).sched l = s.sched l :=
  ⟨fun _ => rfl, fun _ => rfl, fun _ => rfl, fun _ => rfl, fun _ => rfl, fun _ => rfl, fun _ => rfl, fun _ => rfl,
    fun _ => rfl⟩

@[simp] theorem onEc_reads (s : State) (f : EcBlock → EcBlock) : (∀ q, (s.onEc f).frame q = s.frame q) ∧
    (∀ k, (s.onEc f).flow k = s.flow k) ∧ (∀ c, (s.onEc f).linkEntry c = s.linkEntry c) ∧
    (∀ n, (s.onEc f).sq n = s.sq n) ∧ (∀ i, (s.onEc f).slot i = s.slot i) ∧ (∀ i, (s.onEc f).read i = s.read i) ∧
    (∀ n, (s.onEc f).cq n = s.cq n) ∧ (∀ l, (s.onEc f).link l = s.link l) ∧ ∀ l, (s.onEc f).sched l = s.sched l :=
  ⟨fun _ => rfl, fun _ => rfl, fun _ => rfl, fun _ => rfl, fun _ => rfl, fun _ => rfl, fun _ => rfl, fun _ => rfl,
    fun _ => rfl⟩

/-! ### Payload reads -/

/-- A payload read that returns its data while RUNNING. -/
theorem exec_payloadReadReturn_running {s : State} {i : Fin 8} {n r j off : Nat} {gs : List Segment} {e : HostRead}
    {xs : List Byte} (running : s.hp.device = .running) (slot : s.slot i = .payload n r gs j off)
    (read : s.read i = some e) (awaits : e.cutOff = false) (whole : xs.length = e.length) :
    exec (.payloadReadReturn i xs []) s = .next (returnPayload i n r gs j off xs (freeRead i s)) := by
  rw [HostReads.exec_payloadReadReturn, execPayloadReadReturn, strike_nil, slot, read]
  simp [awaits, whole, running]

section
variable (i n r j off k : Nat) {gs : List Segment} {g : Segment} (s : State) (segment : gs[j]? = some g)
include segment

theorem advancePayload_piece (more : off + k < g.length) : advancePayload i n r gs j off k s =
    issuePayload i g (off + k) (s.setSlot i (.payload n r gs j (off + k))) := by
  rw [advancePayload, segment]
  exact if_pos more

theorem advancePayload_segment (ended : g.length ≤ off + k) {h : Segment} (next : gs[j + 1]? = some h) :
    advancePayload i n r gs j off k s = issuePayload i h 0 (s.setSlot i (.payload n r gs (j + 1) 0)) := by
  rw [advancePayload, segment]
  dsimp only
  rw [if_neg (Nat.not_lt.mpr ended), next]

theorem advancePayload_ends (ended : g.length ≤ off + k) (last : gs[j + 1]? = none) :
    advancePayload i n r gs j off k s = endFetch i r true s := by
  rw [advancePayload, segment]
  dsimp only
  rw [if_neg (Nat.not_lt.mpr ended), last]

end

@[simp] theorem advancePayload_frames (i n r : Nat) (gs : List Segment) (j off k : Nat) (s : State) (q : Nat) :
    (advancePayload i n r gs j off k s).frame q = s.frame q := by
  unfold advancePayload
  split
  · rfl
  · split
    · rfl
    · split <;> rfl

/-- The bytes of a CLOSING or DISCARDING frame are dropped, and its fetch goes on (R14). -/
theorem returnPayload_dropped (i n r j off : Nat) (gs : List Segment) (xs : List Byte) {s : State} (clean : s.eccClean)
    (state : (s.frame r).state = .closing ∨ (s.frame r).state = .discarding) :
    returnPayload i n r gs j off xs s = advancePayload i n r gs j off xs.length s := by
  have presented : presentBytes r xs s = (true, s) := by
    rw [presentBytes, checkRecord_clean r clean.2.2]
    dsimp only
    rcases state with d | d <;> rw [d]
  unfold returnPayload
  rw [presented]
  simp

theorem failSlotRead_payload {s : State} {i n r j off : Nat} {gs : List Segment} (running : s.hp.device = .running)
    (slot : s.slot i = .payload n r gs j off) : failSlotRead i s = endFetch i r false (freeRead i s) := by
  simp [failSlotRead, running, slot]

/-- Settles O24: the bytes dropped and the fetch's next step, and the failed read's end. -/
theorem payloadReadEnds : Obligations.PayloadReadEnds := by
  unfold Obligations.PayloadReadEnds
  intro s i n r j off gs g e xs running clean slot read
  refine ⟨fun awaits whole segment state => ?_, fun awaits => ?_, ?_⟩
  · rw [exec_payloadReadReturn_running running slot read awaits whole,
      returnPayload_dropped (s := freeRead i s) i n r j off gs xs clean state]
    refine ⟨fun more => ?_, fun ended h next => ?_, fun ended last => ?_⟩
    · rw [advancePayload_piece _ _ _ _ _ _ _ segment more]
      rfl
    · rw [advancePayload_segment _ _ _ _ _ _ _ segment ended next]
      rfl
    · rw [advancePayload_ends _ _ _ _ _ _ _ segment ended last]
      rfl
  · rw [HostReads.payloadReadError_fails i slot (by simp [awaitsResponse, read, awaits]), failSlotRead_payload running slot]
    rfl
  · rw [HostReads.hostReadTimeout_slot i (by simp [read]), failSlotRead_payload running slot]
    rfl

/-! ### Fetch ends -/

theorem exec_fetchEnd (r : Fin 2048) (us : List Upset) (s : State) :
    exec (.fetchEnd r us) s = .next (fetchEndEvent r (strike us s)) := by rfl

theorem firstCause_eq (kept : Option FrameCause) (c : FrameCause) :
    firstCause kept (some c) = if kept = none then some c else kept := by
  cases kept <;> rfl

theorem leaveQueue_eq (r : Nat) (s : State) : leaveQueue r s = s.setFlow (s.frame r).flow
    { s.flow (s.frame r).flow with queue := (s.flow (s.frame r).flow).queue.erase r } := rfl

/-- The record with the fetch's end noted, out of its queue. -/
theorem failFilling_eq (r : Nat) (s : State) : failFilling r s =
    let t := retire r ((s.setFrame r { s.frame r with
        fetchEnded := true, cause := firstCause (s.frame r).cause (some .hostReadError) }).setFlow (s.frame r).flow
      { s.flow (s.frame r).flow with queue := (s.flow (s.frame r).flow).queue.erase r })
    if (s.flow (s.frame r).flow).queue.head? = some r then consider (s.flow (s.frame r).flow).link t else t := by
  simp [failFilling, isHead, leaveQueue_eq]

/-- Settles O25: the fetch end taken off the list, and then by the record's state. -/
theorem fetchEndTaken : Obligations.FetchEndTaken := by
  unfold Obligations.FetchEndTaken
  intro s r ok before after
  rw [exec_fetchEnd, strike_nil]
  refine ⟨fun absent => ?_, fun listed first => ?_⟩
  · rw [fetchEndEvent, takeFetchEnd_none absent]
  · have taken : fetchEndEvent r s = if s.hp.device = .running then
        (match checkRecord r (s.onBm fun b => { b with fetchEnds := before ++ after }) with
        | (true, s2) => applyFetchEnd r ok s2
        | (false, s2) => s2)
        else s.onBm fun b => { b with fetchEnds := before ++ after } := by
      rw [fetchEndEvent, listed, takeFetchEnd_append first]
      rfl
    rw [taken]
    refine ⟨fun up => by rw [if_neg up], fun running clean => ?_⟩
    rw [if_pos running, checkRecord_clean (s := s.onBm fun b => { b with fetchEnds := before ++ after }) r clean.2.2]
    dsimp only
    rw [← firstCause_eq, ← firstCause_eq]
    have kept : (s.onBm fun b => { b with fetchEnds := before ++ after }).frame r = s.frame r := rfl
    have keptFlow : ∀ f, (s.onBm fun b => { b with fetchEnds := before ++ after }).flow f = s.flow f := fun _ => rfl
    refine ⟨?_, fun state error => ?_, ?_, fun state error follows => ?_, fun state error leads => ?_⟩
    · rintro (state | ⟨state, rfl⟩) <;> simp [applyFetchEnd, kept, state]
    · simp only [applyFetchEnd, kept, state, error]
      rfl
    · rintro (state | state) <;> simp [applyFetchEnd, kept, state]
    · simp only [applyFetchEnd, kept, state, error]
      rw [if_neg (by simp), failFilling_eq]
      simp only [kept, keptFlow, state, if_neg follows]
    · simp only [applyFetchEnd, kept, state, error]
      rw [if_neg (by simp), failFilling_eq]
      simp only [kept, keptFlow, state, if_pos leads]

/-! ### Retirements -/

/-- A flush that ends with its command (R37). -/
theorem endFlush_owed {s : State} {f : Nat} {tag : BitVec 16} {before after : List Outstanding}
    (flushing : (s.flow f).state = .flushing) (empty : (s.flow f).held = 0)
    (owes : s.owes { operation := .flushFlow f, tag := tag } before after) : endFlush f s =
    adminComplete tag 0x13 .ok ((s.flow f).flushed % 65536)
      ((s.setFlow f { s.flow f with state := .disabled }).onAp fun b => { b with outstanding := before ++ after }) := by
  rw [endFlush, if_pos ⟨flushing, empty⟩]
  exact endLong_owed (s := s.setFlow f _) .ok _ owes

theorem endFlush_waits {s : State} {f : Nat} (waits : ¬ ((s.flow f).state = .flushing ∧ (s.flow f).held = 0)) :
    endFlush f s = s := if_neg waits

theorem endDeletion_denied {s : State} {n : Nat} (denied : ¬ ((s.sq n).state = .deleting ∧ (s.sq n).inFlight = 0)) :
    endDeletion n s = s := if_neg denied

@[simp] theorem markAllReady_held (s : State) :
    (markAllReady s).dfu.held = s.dfu.held.map fun e => { e with ready := true } := rfl

theorem retireRecord_blocks (r : Nat) (s : State) :
    (retireRecord r s).cu = (writeCompletion (s.frame r).ring (s.frame r).tag (frameStatus (s.frame r).cause) .none
      (s.frame r).cutThrough (s.frame r).sent s).cu ∧
    (retireRecord r s).hp = (writeCompletion (s.frame r).ring (s.frame r).tag (frameStatus (s.frame r).cause) .none
      (s.frame r).cutThrough (s.frame r).sent s).hp ∧
    (retireRecord r s).dfu.held = s.dfu.held.map (fun e => { e with ready := true }) ∧
    (retireRecord r s).dfu.slots = s.dfu.slots := by
  refine ⟨by simp [retireRecord], by simp [retireRecord], ?_, ?_⟩
  · simp [retireRecord]
  · simp [retireRecord, markAllReady, markReady]

/-- Settles O26: the record's retirement, and the flush and the deletion that it ends. -/
theorem frameRetires : Obligations.FrameRetires := by
  unfold Obligations.FrameRetires
  intro s r f c status
  have named : status = frameStatus f.cause := by
    simp only [status]
    generalize f.cause = given
    rcases given with - | cause
    · rfl
    · cases cause <;> rfl
  clear_value status
  subst named
  subst f c
  have sent : frameStatus (s.frame r).cause = .sent ↔ (s.frame r).cause = none := by
    rcases (s.frame r).cause with - | c
    · simp [frameStatus]
    · cases c <;> simp [frameStatus]
  dsimp only
  obtain ⟨cu, hp, held, slots⟩ := retireRecord_blocks r s
  refine ⟨retireRecord r s, cu, hp, by simp, fun q other => by simp [other], by simp, by simp, by simp,
    fun x tail => ⟨by simp [tail], by simp [tail], fun y other => by simp [tail, Ne.symm other]⟩,
    fun none => ⟨by simp [none], fun y => by simp [none]⟩, by simp, by simp [retiredFlow, sent],
    fun m other => by simp [other], by simp, fun m other => by simp [other], held, slots, by simp, by simp, by simp, by simp,
    ?_⟩
  have flushes : (((retireRecord r s).flow (s.frame r).flow).state = .flushing ∧
      ((retireRecord r s).flow (s.frame r).flow).held = 0) ↔
      (s.flow (s.frame r).flow).state = .flushing ∧ (s.flow (s.frame r).flow).held ≤ (s.frame r).cellCount := by
    simp [retiredFlow, Nat.sub_eq_zero_iff_le]
  have deletes : (((retireRecord r s).sq (s.frame r).ring).state = .deleting ∧
      ((retireRecord r s).sq (s.frame r).ring).inFlight = 0) ↔
      (s.sq (s.frame r).ring).state = .deleting ∧ (s.sq (s.frame r).ring).inFlight ≤ 1 := by
    simp [Nat.sub_eq_zero_iff_le]
  have ap : (retireRecord r s).ap = s.ap := by simp
  unfold retire
  generalize retireRecord r s = t at *
  generalize (s.frame r).flow = f at *
  generalize (s.frame r).ring = n at *
  refine ⟨fun noFlush noDelete => ?_, fun flush noDelete tag before after owes => ?_,
    fun noFlush delete tag before after owes => ?_, fun flush delete tag tag' before after before' after' owes later first => ?_⟩
  · rw [endFlush_waits (mt flushes.mp noFlush), endDeletion_denied (mt deletes.mp noDelete)]
  · obtain ⟨flushing, empty⟩ := flushes.mpr flush
    rw [endFlush_owed flushing empty (by simpa [State.owes, ap] using owes),
      endDeletion_denied (by simpa using mt deletes.mp noDelete)]
  · obtain ⟨deleting, empty⟩ := deletes.mpr delete
    rw [endFlush_waits (mt flushes.mp noFlush),
      FetchSlots.endDeletion_owed deleting empty (by simpa [State.owes, ap] using owes)]
  · obtain ⟨flushing, empty⟩ := flushes.mpr flush
    obtain ⟨deleting, none⟩ := deletes.mpr delete
    rw [endFlush_owed flushing empty (by simpa [State.owes, ap] using owes),
      FetchSlots.endDeletion_owed (by simpa using deleting) (by simpa using none)
        ⟨by simpa [HostReads.adminComplete_eq] using later, first⟩]

end Sys2Proof.Proofs.Retirement

/-! The admin commands over rings (R58, R62 to R64, R130, R131), with what every admin command's arrival brings. -/

namespace Sys2Proof.Proofs.RingCommands

open Sys2Proof Sys2Proof.Machine Host Sys2Proof.Proofs.Readings Sys2Proof.Proofs.Descriptors
open Sys2Proof.Proofs.Retirement

/-! ### A command's arrival -/

@[simp] theorem atDecision_reads (s : State) : (∀ q, s.atDecision.frame q = s.frame q) ∧
    (∀ k, s.atDecision.flow k = s.flow k) ∧ (∀ c, s.atDecision.linkEntry c = s.linkEntry c) ∧
    (∀ n, s.atDecision.sq n = s.sq n) ∧ (∀ i, s.atDecision.slot i = s.slot i) ∧
    (∀ n, s.atDecision.cq n = s.cq n) ∧ (∀ l, s.atDecision.link l = s.link l) ∧
    (∀ l k, s.atDecision.available l k = s.available l k) ∧ (∀ l k, s.atDecision.announced l k = s.announced l k) ∧
    ∀ l, s.atDecision.sched l = s.sched l :=
  ⟨fun _ => rfl, fun _ => rfl, fun _ => rfl, fun _ => rfl, fun _ => rfl, fun _ => rfl, fun _ => rfl, fun _ _ => rfl,
    fun _ _ => rfl, fun _ => rfl⟩

@[simp] theorem atDecision_blocks (s : State) : s.atDecision.bm = s.bm ∧ s.atDecision.dfu = s.dfu ∧
    s.atDecision.lu = s.lu ∧ s.atDecision.es = s.es ∧ s.atDecision.cu = s.cu ∧ s.atDecision.ec = s.ec ∧
    s.atDecision.pending = s.pending ∧ s.atDecision.hp.out = s.hp.out ∧ s.atDecision.hp.device = s.hp.device ∧
    s.atDecision.ap.outstanding = s.ap.outstanding ∧ s.atDecision.hp.acrBase = s.hp.acrBase ∧
    s.atDecision.ap.acrTail = s.ap.acrTail ∧ s.atDecision.ap.acrPhase = s.ap.acrPhase :=
  ⟨rfl, rfl, rfl, rfl, rfl, rfl, rfl, rfl, rfl, rfl, rfl, rfl, rfl⟩

section
variable {s : State} {c : Instr} {tag : BitVec 16} {kind : Nat} {status : State → AdminStatus}
  {effect : State → State → State} (arrives : s.commandArrives)
  (taken : exec c s = .next (takeCommand (fun t => shortCommand tag kind (status t) (effect t) t) s))
include arrives taken

/-- A short command that its checks refuse (R141). -/
theorem short_refused {st : AdminStatus} (checked : status s.atDecision = st) (refused : st ≠ .ok) :
    exec c s = .next (s.atDecision.answered tag kind st 0) := by
  rw [taken, takeCommand_arrives _ arrives]
  simp only [shortCommand, checked, if_neg refused]
  rfl

/-- A short command whose checks pass (R141). -/
theorem short_ok (checked : status s.atDecision = .ok) :
    exec c s = .next ((effect s.atDecision s.atDecision).answered tag kind .ok 0) := by
  rw [taken, takeCommand_arrives _ arrives]
  simp only [shortCommand, checked]
  rfl

end

/-! ### CREATE_SQ and CREATE_CQ -/

theorem exec_createSq (tag : BitVec 16) (ring cq : BitVec 8) (size limit : BitVec 16) (base : Address) (s : State) :
    exec (.createSq tag ring cq size limit base) s = .next (takeCommand (fun t =>
      shortCommand tag 0x01 (createSqStatus t ring.toNat cq.toNat size.toNat limit.toNat base)
        (fun u => u.setSq ring.toNat (createdSq cq.toNat size.toNat limit.toNat base)) t) s) := by rfl

theorem exec_createCq (tag : BitVec 16) (ring vector threshold : BitVec 8) (size holdoff : BitVec 16) (base : Address)
    (s : State) : exec (.createCq tag ring vector threshold size holdoff base) s = .next (takeCommand (fun t =>
      shortCommand tag 0x03 (createCqStatus t ring.toNat vector.toNat threshold.toNat size.toNat holdoff.toNat base)
        (fun u => u.setCq ring.toNat (createdCq vector.toNat threshold.toNat size.toNat holdoff.toNat base)) t) s) := by rfl

/-- The parameters of CREATE_SQ that its checks accept (R62). -/
def sqParameters (s : State) (ring cq size limit : Nat) (base : Address) : Prop :=
  ring ≤ 31 ∧ base.toNat % 64 = 0 ∧ size ∈ [16, 32, 64, 128, 256, 512, 1024, 2048, 4096] ∧ cq ≤ 15 ∧ 1 ≤ limit ∧
    limit ≤ 2048 ∧ (s.cq cq).state = .active

/-- The parameters of CREATE_CQ that its checks accept (R130). -/
def cqParameters (ring vector threshold size holdoff : Nat) (base : Address) : Prop :=
  ring ≤ 15 ∧ base.toNat % 16 = 0 ∧ size ∈ [16, 32, 64, 128, 256, 512, 1024, 2048, 4096] ∧ 1 ≤ vector ∧ vector ≤ 16 ∧
    1 ≤ threshold ∧ threshold ≤ 255 ∧ holdoff ≤ 4095

theorem createSqStatus_bad {s : State} {ring cq size limit : Nat} {base : Address}
    (bad : ¬ sqParameters s ring cq size limit base) : createSqStatus s ring cq size limit base = .badParameter := by
  unfold createSqStatus
  split
  · rfl
  · split
    · rfl
    · next inside good =>
      simp only [not_or, not_not, Bool.not_eq_true', Bool.not_eq_false, List.contains_iff_mem] at good
      obtain ⟨aligned, sized, small, low, high, active⟩ := good
      exact absurd ⟨Nat.le_of_not_lt inside, aligned, sized, Nat.le_of_not_lt small, Nat.le_of_not_lt low,
        Nat.le_of_not_lt high, active⟩ bad

theorem createSqStatus_good {s : State} {ring cq size limit : Nat} {base : Address}
    (good : sqParameters s ring cq size limit base) : createSqStatus s ring cq size limit base =
      if (s.sq ring).state ≠ .absent then .badState else .ok := by
  obtain ⟨inside, aligned, sized, small, low, high, active⟩ := good
  have known : size ∈ ringSizes := sized
  rw [createSqStatus, if_neg (Nat.not_lt.mpr inside), if_neg]
  rintro (h | h | h | h | h | h)
  · exact h aligned
  · exact absurd known (by simpa using h)
  · omega
  · omega
  · omega
  · exact h active

theorem createCqStatus_bad {s : State} {ring vector threshold size holdoff : Nat} {base : Address}
    (bad : ¬ cqParameters ring vector threshold size holdoff base) :
    createCqStatus s ring vector threshold size holdoff base = .badParameter := by
  unfold createCqStatus
  split
  · rfl
  · split
    · rfl
    · next inside good =>
      simp only [not_or, not_not, Bool.not_eq_true', Bool.not_eq_false, List.contains_iff_mem] at good
      obtain ⟨aligned, sized, one, sixteen, low, high, held⟩ := good
      exact absurd ⟨Nat.le_of_not_lt inside, aligned, sized, Nat.le_of_not_lt one, Nat.le_of_not_lt sixteen,
        Nat.le_of_not_lt low, Nat.le_of_not_lt high, Nat.le_of_not_lt held⟩ bad

theorem createCqStatus_good {s : State} {ring vector threshold size holdoff : Nat} {base : Address}
    (good : cqParameters ring vector threshold size holdoff base) :
    createCqStatus s ring vector threshold size holdoff base =
      if (s.cq ring).state ≠ .absent then .badState else .ok := by
  obtain ⟨inside, aligned, sized, one, sixteen, low, high, held⟩ := good
  have known : size ∈ ringSizes := sized
  rw [createCqStatus, if_neg (Nat.not_lt.mpr inside), if_neg]
  rintro (h | h | h | h | h | h | h)
  · exact h aligned
  · exact absurd known (by simpa using h)
  all_goals omega

/-- Settles O27: the parameters first, then the ring's state, then the context. -/
theorem ringsCreated : Obligations.RingsCreated := by
  unfold Obligations.RingsCreated
  intro s tag ring cq size limit base vector threshold holdoff arrives
  dsimp only
  have sqGood := @createSqStatus_good s.atDecision ring.toNat cq.toNat size.toNat limit.toNat base
  have cqGood := @createCqStatus_good s.atDecision ring.toNat vector.toNat threshold.toNat size.toNat holdoff.toNat base
  refine ⟨fun bad => ?_, fun good present => ?_, fun good absent => ?_, fun bad => ?_, fun good present => ?_,
    fun good absent => ?_⟩
  · have checked := @createSqStatus_bad s.atDecision ring.toNat cq.toNat size.toNat limit.toNat base bad
    exact short_refused arrives (exec_createSq ..) checked (by simp)
  · have checked := (sqGood good).trans (if_pos present)
    exact short_refused arrives (exec_createSq ..) checked (by simp)
  · have checked := (sqGood good).trans (if_neg (not_not.mpr absent))
    have taken := short_ok arrives (exec_createSq tag ring cq size limit base s) checked
    exact taken
  · have checked := @createCqStatus_bad s.atDecision ring.toNat vector.toNat threshold.toNat size.toNat holdoff.toNat base bad
    exact short_refused arrives (exec_createCq ..) checked (by simp)
  · have checked := (cqGood good).trans (if_pos present)
    exact short_refused arrives (exec_createCq ..) checked (by simp)
  · have checked := (cqGood good).trans (if_neg (not_not.mpr absent))
    have taken := short_ok arrives (exec_createCq tag ring vector threshold size holdoff base s) checked
    exact taken

/-! ### DELETE_CQ and DELETE_SQ -/

theorem exec_deleteCq (tag : BitVec 16) (ring : BitVec 8) (s : State) : exec (.deleteCq tag ring) s =
    .next (takeCommand (fun t => shortCommand tag 0x04 (deleteCqStatus t ring.toNat)
      (fun u => u.setCq ring.toNat CqContext.reset) t) s) := by rfl

theorem cqBound_iff (s : State) (c : Nat) : cqBound s c = true ↔ ∃ m < 32, (s.sq m).state ≠ .absent ∧ (s.sq m).cq = c := by
  simp [cqBound, sqTotal]

/-- DELETE_SQ as its owner decides it (R63). -/
def deleteSqEffect (tag : BitVec 16) (n : Nat) (t : State) : State :=
  if 31 < n then adminComplete tag 0x02 .badParameter 0 t
  else match (t.sq n).state with
    | .absent => adminComplete tag 0x02 .notFound 0 t
    | .deleting => adminComplete tag 0x02 .busy 0 t
    | .active | .error => beginDeletion tag n t

theorem exec_deleteSq (tag : BitVec 16) (ring : BitVec 8) (s : State) :
    exec (.deleteSq tag ring) s = .next (takeCommand (deleteSqEffect tag ring.toNat) s) := by rfl

theorem deleteSq_arrives {s : State} (tag : BitVec 16) (ring : BitVec 8) (arrives : s.commandArrives) :
    exec (.deleteSq tag ring) s = .next (startCommandRead (deleteSqEffect tag ring.toNat s.atDecision)) := by
  rw [exec_deleteSq, takeCommand_arrives _ arrives]

theorem deleteSqEffect_begins {s : State} (tag : BitVec 16) {n : Nat} (inside : n ≤ 31)
    (live : (s.sq n).state = .active ∨ (s.sq n).state = .error) : deleteSqEffect tag n s = beginDeletion tag n s := by
  rw [deleteSqEffect, if_neg (Nat.not_lt.mpr inside)]
  rcases live with live | live <;> rw [live]

/-- A deletion that ends in its command's own event: the command is completed and never outstanding (R64). -/
theorem endDeletion_at_once {v : State} {n : Nat} {tag : BitVec 16} (deleting : (v.sq n).state = .deleting)
    (empty : (v.sq n).inFlight = 0) (fresh : ∀ x ∈ v.ap.outstanding, x.operation ≠ .deleteSq n) :
    endDeletion n (appendOutstanding (.deleteSq n) tag v) = adminComplete tag 0x02 .ok 0 (v.setSq n SqContext.reset) := by
  have owes : (appendOutstanding (.deleteSq n) tag v).owes { operation := .deleteSq n, tag := tag } v.ap.outstanding [] :=
    ⟨rfl, fresh⟩
  rw [FetchSlots.endDeletion_owed (s := appendOutstanding (.deleteSq n) tag v) deleting empty owes, List.append_nil]
  rfl

theorem endDeletion_outstanding {v : State} {n : Nat} {tag : BitVec 16} (left : (v.sq n).inFlight ≠ 0) :
    endDeletion n (appendOutstanding (.deleteSq n) tag v) = appendOutstanding (.deleteSq n) tag v :=
  if_neg fun ⟨_, empty⟩ => left empty

@[simp] theorem onDfu_held_sq (s : State) (f : List HeldEntry → List HeldEntry) (n : Nat) :
    (s.onDfu fun b => { b with held := f b.held }).sq n = s.sq n := rfl

/-- The ring DELETING, with its held descriptor completed (R58, R63). -/
def markedDeleting (n : Nat) (s : State) : State :=
  match (s.sq n).held with
  | none => s.setSq n { s.sq n with state := .deleting }
  | some h => completeUnadmitted n h.descriptor.tag .ringDeleted .none
      ((s.setSq n { s.sq n with state := .deleting, held := none }).onDfu fun b =>
        { b with held := b.held.filter fun x => decide (x.ring ≠ n) })

theorem beginDeletion_eq (tag : BitVec 16) (n : Nat) (s : State) : beginDeletion tag n s =
    endDeletion n (appendOutstanding (.deleteSq n) tag (markedDeleting n s)) := by
  have kept : ((s.setSq n { s.sq n with state := .deleting }).sq n).held = (s.sq n).held := by simp
  unfold beginDeletion markedDeleting
  dsimp only
  rw [kept]
  cases (s.sq n).held with
  | none => rfl
  | some h => simp [clearHeld]

theorem deleteSq_begins {s : State} (tag : BitVec 16) {ring : BitVec 8} (arrives : s.commandArrives)
    (inside : ring.toNat ≤ 31) (live : (s.sq ring.toNat).state = .active ∨ (s.sq ring.toNat).state = .error) :
    exec (.deleteSq tag ring) s = .next (startCommandRead (endDeletion ring.toNat
      (appendOutstanding (.deleteSq ring.toNat) tag (markedDeleting ring.toNat s.atDecision)))) := by
  rw [deleteSq_arrives tag ring arrives, deleteSqEffect_begins (s := s.atDecision) tag inside live, beginDeletion_eq]

/-- The traffic a command read adds. -/
theorem startCommandRead_out (s : State) : ∃ x, (startCommandRead s).hp.out = s.hp.out ++ x := by
  unfold startCommandRead
  split
  · exact ⟨_, rfl⟩
  · exact ⟨[], by simp⟩

theorem answered_out (s : State) (tag : BitVec 16) (kind : Nat) (st : AdminStatus) (x : Nat) :
    (s.answered tag kind st x).hp.out.take (s.hp.out.length + 1) = s.hp.out ++
      [.write32 (s.hp.acrBase.toNat + 32 * s.ap.acrTail) (adminRecord tag kind st s.ap.asrHead x s.ap.acrPhase)] := by
  obtain ⟨y, out⟩ := startCommandRead_out (adminComplete tag kind st x s)
  rw [State.answered, out, HostReads.adminComplete_eq]
  simp [List.take_append]

/-- Settles O28: DELETE_CQ by its checks; DELETE_SQ by the ring's state, its held descriptor and its in-flight count. -/
theorem ringsDeleted : Obligations.RingsDeleted := by
  unfold Obligations.RingsDeleted
  intro s tag ring arrives
  dsimp only
  refine ⟨fun above => ?_, fun inside absent => ?_, fun inside active => ⟨fun bound => ?_, fun unbound => ?_⟩, fun above => ?_,
    fun inside => ⟨fun absent => ?_, fun deleting => ?_, fun live unheld => ⟨fun left => ?_, fun empty fresh => ?_⟩,
      fun live h held => ⟨fun left => ?_, fun few fresh => ?_⟩⟩⟩
  · exact short_refused arrives (exec_deleteCq ..) (if_pos above) (by simp)
  · refine short_refused arrives (exec_deleteCq ..) ?_ (by simp)
    rw [deleteCqStatus, if_neg (Nat.not_lt.mpr inside)]
    exact if_pos absent
  · refine short_refused arrives (exec_deleteCq ..) ?_ (by simp)
    rw [deleteCqStatus, if_neg (Nat.not_lt.mpr inside), if_neg (by simp [active]), if_pos]
    exact (cqBound_iff ..).mpr bound
  · have checked : deleteCqStatus s.atDecision ring.toNat = .ok := by
      rw [deleteCqStatus, if_neg (Nat.not_lt.mpr inside), if_neg (by simp [active]), if_neg]
      exact mt (cqBound_iff ..).mp fun ⟨m, small, present, same⟩ => unbound m small present same
    have taken := short_ok arrives (exec_deleteCq tag ring s) checked
    exact taken
  · rw [deleteSq_arrives tag ring arrives, deleteSqEffect, if_pos above]
    rfl
  · rw [deleteSq_arrives tag ring arrives, deleteSqEffect, if_neg (Nat.not_lt.mpr inside),
      show (s.atDecision.sq ring.toNat).state = .absent from absent]
    rfl
  · rw [deleteSq_arrives tag ring arrives, deleteSqEffect, if_neg (Nat.not_lt.mpr inside),
      show (s.atDecision.sq ring.toNat).state = .deleting from deleting]
    rfl
  · have marked : markedDeleting ring.toNat s.atDecision =
        s.atDecision.setSq ring.toNat { s.sq ring.toNat with state := .deleting } := by simp [markedDeleting, unheld]
    rw [deleteSq_begins tag arrives inside live, marked,
      endDeletion_outstanding (by simpa using left)]
    rfl
  · have marked : markedDeleting ring.toNat s.atDecision =
        s.atDecision.setSq ring.toNat { s.sq ring.toNat with state := .deleting } := by simp [markedDeleting, unheld]
    rw [deleteSq_begins tag arrives inside live, marked,
      endDeletion_at_once (v := s.atDecision.setSq ring.toNat { s.sq ring.toNat with state := .deleting }) (by simp)
        (by simpa using empty) fresh, State.setSq_setSq]
    refine ⟨_, rfl, by simp, fun m other => by simp [other], ?_, by simp, by simp, ?_, by simp, by simp, by simp,
      by simp, by simp⟩
    · rw [HostReads.adminComplete_eq]
      simp
    · exact answered_out (s.atDecision.setSq ring.toNat SqContext.reset) tag 0x02 .ok 0
  all_goals
    have marked : markedDeleting ring.toNat s.atDecision = completeUnadmitted ring.toNat h.descriptor.tag .ringDeleted .none
        ((s.atDecision.setSq ring.toNat { s.sq ring.toNat with state := .deleting, held := none }).onDfu fun b =>
          { b with held := b.held.filter fun x => decide (x.ring ≠ ring.toNat) }) := by simp [markedDeleting, held]
    have context : ((markedDeleting ring.toNat s.atDecision).sq ring.toNat) =
        { s.sq ring.toNat with state := .deleting, held := none, inFlight := (s.sq ring.toNat).inFlight - 1 } := by
      rw [marked, completeUnadmitted_sq, if_pos rfl, onDfu_held_sq]
      simp
    have ap : (markedDeleting ring.toNat s.atDecision).ap.outstanding = s.ap.outstanding := by rw [marked]; simp
    rw [deleteSq_begins tag arrives inside live, ← marked]
  · rw [endDeletion_outstanding (by rw [context]; show (s.sq ring.toNat).inFlight - 1 ≠ 0; omega)]
    rfl
  · rw [endDeletion_at_once (by rw [context]) (by rw [context]; show (s.sq ring.toNat).inFlight - 1 = 0; omega)
      (by rw [ap]; exact fresh)]
    rfl

end Sys2Proof.Proofs.RingCommands

/-! The commands that configure, enable and disable a flow, and the queries (R26 to R32, R83, R137, R147). -/

namespace Sys2Proof.Proofs.FlowCommands

open Sys2Proof Sys2Proof.Machine Host Sys2Proof.Proofs.Readings Sys2Proof.Proofs.Descriptors
open Sys2Proof.Proofs.Retirement Sys2Proof.Proofs.RingCommands Sys2Proof.Proofs.RecordLayouts

/-! ### CONFIGURE_FLOW, ENABLE_FLOW, DISABLE_FLOW -/

theorem exec_configureFlow (tag flow : BitVec 16) (link cls : BitVec 8) (cap : BitVec 16) (policy threshold : BitVec 8)
    (s : State) : exec (.configureFlow tag flow link cls cap policy threshold) s = .next (takeCommand (fun t =>
      shortCommand tag 0x10 (configureFlowStatus t flow.toNat link.toNat cls.toNat cap.toNat policy threshold.toNat)
        (fun u => markFlowReady flow.toNat (u.setFlow flow.toNat
          (configuredFlow (u.flow flow.toNat) link.toNat cls.toNat cap.toNat policy threshold.toNat))) t) s) := by rfl

theorem exec_enableFlow (tag flow : BitVec 16) (s : State) : exec (.enableFlow tag flow) s = .next (takeCommand (fun t =>
    shortCommand tag 0x11 (enableFlowStatus t flow.toNat) (fun u => markFlowReady flow.toNat
      (u.setFlow flow.toNat { u.flow flow.toNat with state := .enabled })) t) s) := by rfl

theorem exec_disableFlow (tag flow : BitVec 16) (s : State) : exec (.disableFlow tag flow) s = .next (takeCommand (fun t =>
    shortCommand tag 0x12 (disableFlowStatus t flow.toNat) (fun u => markFlowReady flow.toNat
      (u.setFlow flow.toNat { u.flow flow.toNat with state := .disabled })) t) s) := by rfl

/-- The values of CONFIGURE_FLOW's operands that its checks accept (R28). -/
def flowParameters (flow link cls cap policy threshold : Nat) : Prop :=
  flow ≤ 127 ∧ link ≤ 3 ∧ cls ≤ 7 ∧ 1 ≤ cap ∧ cap ≤ 8192 ∧ policy ≤ 1 ∧ threshold ≤ 8

/-- The two policies a command can name (R21). -/
theorem policyOf_eq (b : BitVec 8) : policyOf b = if b.toNat = 0 then some .hold else
    if b.toNat = 1 then some .discard else .none := by
  unfold policyOf
  split
  · next zero => rw [if_pos zero]
  · next one => rw [if_neg (by omega), if_pos one]
  · next not_zero not_one => rw [if_neg not_zero, if_neg not_one]

theorem configureFlowStatus_bad {s : State} {flow link cls cap threshold : Nat} {policy : BitVec 8}
    (bad : ¬ flowParameters flow link cls cap policy.toNat threshold) :
    configureFlowStatus s flow link cls cap policy threshold = .badParameter := by
  have known : policyOf policy = none ↔ 1 < policy.toNat := by
    rw [policyOf_eq]
    split
    · simp; omega
    · split <;> simp <;> omega
  unfold configureFlowStatus
  split
  · rfl
  · rw [if_pos]
    rw [known]
    unfold flowParameters at bad
    omega

theorem configureFlowStatus_good {s : State} {flow link cls cap threshold : Nat} {policy : BitVec 8}
    (good : flowParameters flow link cls cap policy.toNat threshold) :
    configureFlowStatus s flow link cls cap policy threshold =
      if (s.flow flow).state = .unconfigured ∨ ((s.flow flow).state = .disabled ∧ (s.flow flow).held = 0) then .ok
      else .badState := by
  obtain ⟨inside, link_ok, cls_ok, low, high, known, few⟩ := good
  have named : policyOf policy ≠ none := by
    rw [policyOf_eq]
    split
    · simp
    · rw [if_pos (by omega)]; simp
  rw [configureFlowStatus, if_neg (by omega), if_neg]
  · cases (s.flow flow).state <;> simp
  · rintro (h | h | h | h | h | h)
    · omega
    · omega
    · omega
    · omega
    · exact named h
    · omega

theorem configuredFlow_eq (c : FlowContext) (link cls cap threshold : Nat) {policy : BitVec 8} (known : policy.toNat ≤ 1) :
    configuredFlow c link cls cap policy threshold = { c with
      state := .disabled, link := link, cls := cls, cap := cap,
      policy := (if policy.toNat = 0 then .hold else .discard), threshold := threshold, sent := 0, flushed := 0 } := by
  have one : policy.toNat ≠ 0 → policy.toNat = 1 := by omega
  rw [configuredFlow, policyOf_eq]
  by_cases zero : policy.toNat = 0
  · simp [zero]
  · simp [one zero]

theorem enableFlowStatus_inside {s : State} {f : Nat} (inside : f ≤ 127) : enableFlowStatus s f =
    if (s.flow f).state = .unconfigured then .notFound else if (s.flow f).state = .disabled then .ok else .badState := by
  rw [enableFlowStatus, if_neg (Nat.not_lt.mpr inside)]
  cases (s.flow f).state <;> rfl

theorem disableFlowStatus_inside {s : State} {f : Nat} (inside : f ≤ 127) : disableFlowStatus s f =
    if (s.flow f).state = .unconfigured then .notFound else if (s.flow f).state = .enabled then .ok else .badState := by
  rw [disableFlowStatus, if_neg (Nat.not_lt.mpr inside)]
  cases (s.flow f).state <;> rfl

/-- A held list after the marks of a flow: as long as before, each entry with its ring and its stop, the mark of one that
names the flow yes and that of any other as it was (R31, R56). -/
theorem markFlowReady_held (f : Nat) (s : State) : (markFlowReady f s).dfu.held.length = s.dfu.held.length ∧
    ∀ (k : Nat) (a b : HeldEntry), s.dfu.held[k]? = some a → (markFlowReady f s).dfu.held[k]? = some b →
      b.ring = a.ring ∧ b.stopped = a.stopped ∧
      ((∃ h, (s.sq a.ring).held = some h ∧ h.descriptor.flow = f) → b.ready = true) ∧
      ((¬ ∃ h, (s.sq a.ring).held = some h ∧ h.descriptor.flow = f) → b.ready = a.ready) := by
  refine ⟨by simp [markFlowReady, markReady], fun k a b before after => ?_⟩
  simp only [markFlowReady, markReady, State.onDfu, List.getElem?_map, before, Option.map_some, Option.some.injEq] at after
  subst after
  rcases Option.eq_none_or_eq_some (s.sq a.ring).held with copy | ⟨h, copy⟩
  · simp [copy]
  · by_cases named : h.descriptor.flow = f <;> simp [copy, named]

/-- A flow's context written and its held descriptors marked: what changes besides the marks is that context. -/
theorem markFlowReady_eq (f : Nat) (s : State) :
    markFlowReady f s = s.onDfu fun b => { b with held := (markFlowReady f s).dfu.held } := rfl

/-- Settles O29: by the table of R26, a refused command changing neither the flow nor the marks. -/
theorem flowCommandsTaken : Obligations.FlowCommandsTaken := by
  unfold Obligations.FlowCommandsTaken
  intro s tag flow link cls cap policy threshold arrives
  dsimp only
  have taken (i : Instr) (kind : Nat) (x : FlowContext) (ends : exec i s =
      .next ((markFlowReady flow.toNat (s.atDecision.setFlow flow.toNat x)).answered tag kind .ok 0)) :
      ∃ v : State, exec i s = .next (v.answered tag kind .ok 0) ∧
        v = (s.atDecision.setFlow flow.toNat x).onDfu (fun b => { b with held := v.dfu.held }) ∧
        v.dfu.held.length = s.dfu.held.length ∧
        ∀ (k : Nat) (a b : HeldEntry), s.dfu.held[k]? = some a → v.dfu.held[k]? = some b →
          b.ring = a.ring ∧ b.stopped = a.stopped ∧
          ((∃ h, (s.sq a.ring).held = some h ∧ h.descriptor.flow = flow.toNat) → b.ready = true) ∧
          ((¬ ∃ h, (s.sq a.ring).held = some h ∧ h.descriptor.flow = flow.toNat) → b.ready = a.ready) := by
    obtain ⟨long, marks⟩ := markFlowReady_held flow.toNat (s.atDecision.setFlow flow.toNat x)
    exact ⟨_, ends, markFlowReady_eq .., long, marks⟩
  have enableRefused {st : AdminStatus} (checked : enableFlowStatus s.atDecision flow.toNat = st) (refused : st ≠ .ok) :
      exec (.enableFlow tag flow) s = .next (s.atDecision.answered tag 0x11 st 0) :=
    short_refused arrives (exec_enableFlow ..) checked refused
  have disableRefused {st : AdminStatus} (checked : disableFlowStatus s.atDecision flow.toNat = st) (refused : st ≠ .ok) :
      exec (.disableFlow tag flow) s = .next (s.atDecision.answered tag 0x12 st 0) :=
    short_refused arrives (exec_disableFlow ..) checked refused
  refine ⟨fun bad => ?_, fun good free => ?_, fun good busy => ?_, fun above => ⟨?_, ?_⟩, fun inside =>
    ⟨fun state => ⟨?_, ?_⟩, fun state => ⟨?_, ?_⟩, fun state => ⟨?_, ?_⟩, fun state => ⟨?_, ?_⟩⟩⟩
  · exact short_refused arrives (exec_configureFlow ..) (configureFlowStatus_bad bad) (by simp)
  · refine taken _ _ _ ?_
    have checked : configureFlowStatus s.atDecision flow.toNat link.toNat cls.toNat cap.toNat policy threshold.toNat = .ok := by
      rw [configureFlowStatus_good good]; exact if_pos free
    have ends := short_ok arrives (exec_configureFlow tag flow link cls cap policy threshold s) checked
    obtain ⟨-, -, -, -, -, known, -⟩ := good
    rw [ends, configuredFlow_eq _ _ _ _ _ known]
    rfl
  · refine short_refused arrives (exec_configureFlow ..) ?_ (by simp)
    rw [configureFlowStatus_good good]
    refine if_neg ?_
    show ¬ ((s.flow flow.toNat).state = .unconfigured ∨ ((s.flow flow.toNat).state = .disabled ∧ (s.flow flow.toNat).held = 0))
    rcases busy with state | state | ⟨state, some_cells⟩
    · simp [state]
    · simp [state]
    · simp [state, some_cells]
  · exact enableRefused (if_pos above) (by simp)
  · exact disableRefused (if_pos above) (by simp)
  · exact enableRefused (by rw [enableFlowStatus_inside inside]; simp [state]) (by simp)
  · exact disableRefused (by rw [disableFlowStatus_inside inside]; simp [state]) (by simp)
  · refine taken _ _ _ ?_
    have checked : enableFlowStatus s.atDecision flow.toNat = .ok := by
      rw [enableFlowStatus_inside inside]; simp [state]
    rw [short_ok arrives (exec_enableFlow tag flow s) checked]
    rfl
  · exact disableRefused (by rw [disableFlowStatus_inside inside]; simp [state]) (by simp)
  · exact enableRefused (by rw [enableFlowStatus_inside inside]; simp [state]) (by simp)
  · refine taken _ _ _ ?_
    have checked : disableFlowStatus s.atDecision flow.toNat = .ok := by
      rw [disableFlowStatus_inside inside]; simp [state]
    rw [short_ok arrives (exec_disableFlow tag flow s) checked]
    rfl
  · exact enableRefused (by rw [enableFlowStatus_inside inside]; simp [state]) (by simp)
  · exact disableRefused (by rw [disableFlowStatus_inside inside]; simp [state]) (by simp)

/-! ### The queries -/

/-- A command whose event is one admin completion, whatever its checks give. -/
theorem command_answered {s : State} {c : Instr} {effect : State → State} (arrives : s.commandArrives)
    (taken : exec c s = .next (takeCommand effect s)) {v : State} {tag : BitVec 16} {kind : Nat} {st : AdminStatus} {x : Nat}
    (effects : effect s.atDecision = adminComplete tag kind st x v) : exec c s = .next (v.answered tag kind st x) := by
  rw [taken, takeCommand_arrives _ arrives]
  show Outcome.next (startCommandRead (effect s.atDecision)) = _
  rw [effects]
  rfl

theorem exec_queryFlow (tag flow : BitVec 16) (s : State) : exec (.queryFlow tag flow) s = .next (takeCommand (fun t =>
    if 127 < flow.toNat then adminComplete tag 0x14 .badParameter 0 t
    else adminComplete tag 0x14 .ok (flowResult (t.flow flow.toNat)) t) s) := by rfl

theorem exec_queryLink (tag : BitVec 16) (link : BitVec 8) (s : State) :
    exec (.queryLink tag link) s = .next (takeCommand (fun t =>
      if 3 < link.toNat then adminComplete tag 0x23 .badParameter 0 t
      else adminComplete tag 0x23 .ok (linkResult t link.toNat) t) s) := by rfl

theorem exec_queryPool (tag : BitVec 16) (s : State) : exec (.queryPool tag) s =
    .next (takeCommand (fun t => adminComplete tag 0x41 .ok (poolResult t) t) s) := by rfl

theorem exec_unknownCommand (tag : BitVec 16) (kind : BitVec 8) (s : State) : exec (.unknownCommand tag kind) s =
    .next (takeCommand (fun t => adminComplete tag kind.toNat .unknownCommand 0 t) s) := by rfl

theorem flowCode_small (x : FlowState) : x.code < 256 := by cases x <;> decide

theorem linkCode_small (x : LinkState) : x.code < 256 := by cases x <;> decide

theorem causeCode_small (x : Option LinkCause) : causeCode x < 256 := by
  rcases x with _ | x
  · decide
  · cases x <;> decide

theorem bit_small (b : Bool) : bit b < 256 := by cases b <;> decide

/-- Settles O32: each query answers with its record's layout, read field by field. -/
theorem queriesAnswered : Obligations.QueriesAnswered := by
  unfold Obligations.QueriesAnswered
  intro s tag flow link kind arrives
  dsimp only
  refine ⟨fun above => ?_, fun inside => ?_, fun above => ?_, fun inside => ?_, ?_, ?_⟩
  · exact command_answered arrives (exec_queryFlow ..) (if_pos above)
  · refine ⟨_, command_answered arrives (exec_queryFlow ..) (if_neg (Nat.not_lt.mpr inside)), ?_⟩
    have state := flowCode_small (s.flow flow.toNat).state
    simp (disch := omega) only [recordField_here, recordField_there, recordField_nil, Nat.or_zero, Nat.reduceMul, Nat.reducePow,
      Nat.mod_eq_of_lt, atDecision_reads, and_self]
  · exact command_answered arrives (exec_queryLink ..) (if_pos above)
  · refine ⟨_, command_answered arrives (exec_queryLink ..) (if_neg (Nat.not_lt.mpr inside)), ?_⟩
    have state := linkCode_small (s.link link.toNat).state
    have cause := causeCode_small (s.link link.toNat).cause
    have pending := bit_small (s.sched link.toNat).activation
    refine ⟨?_, ?_, fun n lane => ?_, ?_, ?_⟩
    case refine_3 =>
      obtain rfl | rfl | rfl | rfl : n = 0 ∨ n = 1 ∨ n = 2 ∨ n = 3 := by omega
      all_goals
        simp (disch := omega) only [recordField_here, recordField_there, recordField_nil, Nat.or_zero, Nat.reduceMul,
          Nat.reduceAdd, Nat.reducePow, atDecision_reads, and_self]
    all_goals
      simp (disch := omega) only [recordField_here, recordField_there, recordField_nil, Nat.or_zero, Nat.reduceMul, Nat.reducePow,
        Nat.mod_eq_of_lt, atDecision_reads]
  · refine ⟨_, command_answered arrives (exec_queryPool ..) rfl, ?_⟩
    simp (disch := omega) only [recordField_here, recordField_there, recordField_nil, Nat.or_zero, Nat.reduceMul, Nat.reducePow,
      atDecision_blocks, and_self]
  · exact command_answered arrives (exec_unknownCommand ..) rfl

end Sys2Proof.Proofs.FlowCommands

/-! The admin commands over links, and the partner's messages and the timers that leave a link's frame alone (R70 to R78,
R82, R85, R96, R99). -/

namespace Sys2Proof.Proofs.LinkCommands

open Sys2Proof Sys2Proof.Machine Host Sys2Proof.Proofs.Readings Sys2Proof.Proofs.Descriptors
open Sys2Proof.Proofs.Retirement Sys2Proof.Proofs.RingCommands Sys2Proof.Proofs.FlowCommands

/-! ### What the operations of links do -/

/-- A completion leaves the outstanding commands. -/
@[simp] theorem adminComplete_outstanding (tag : BitVec 16) (kind : Nat) (st : AdminStatus) (x : Nat) (s : State) :
    (adminComplete tag kind st x s).ap.outstanding = s.ap.outstanding := by
  rw [HostReads.adminComplete_eq]

theorem owes_congr {s t : State} {e : Outstanding} {before after : List Outstanding}
    (same : t.ap.outstanding = s.ap.outstanding) (owes : s.owes e before after) : t.owes e before after := by
  obtain ⟨list, first⟩ := owes
  exact ⟨same.trans list, first⟩

/-- A command that joins the outstanding ones stands behind those owed already. -/
theorem owes_append {s : State} {e : Outstanding} {before after : List Outstanding} (o : LongOperation) (tag : BitVec 16)
    (owes : s.owes e before after) :
    (appendOutstanding o tag s).owes e before (after ++ [{ operation := o, tag := tag }]) := by
  obtain ⟨list, first⟩ := owes
  refine ⟨?_, first⟩
  show s.ap.outstanding ++ _ = _
  rw [list, List.append_assoc]
  rfl

@[simp] theorem clearCredit_reads (l : Nat) (st : LinkState) (s : State) :
    (∀ q, (clearCredit l st s).frame q = s.frame q) ∧ (∀ f, (clearCredit l st s).flow f = s.flow f) ∧
    (∀ n, (clearCredit l st s).sq n = s.sq n) ∧ (∀ n, (clearCredit l st s).cq n = s.cq n) ∧
    ∀ k, (clearCredit l st s).sched k = s.sched k :=
  ⟨fun _ => rfl, fun _ => rfl, fun _ => rfl, fun _ => rfl, fun _ => rfl⟩

theorem clearCredit_setLink (l : Nat) (st : LinkState) (s : State) (x : LinkContext) : clearCredit l st (s.setLink l x) =
    s.setLink l { x with announced := [], available := [], state := st } := by simp [clearCredit]

theorem clearCredit_send (l : Nat) (st : LinkState) (s : State) (k : Nat) (m : LinkMessage) :
    clearCredit l st (s.send k m) = (clearCredit l st s).send k m := rfl

section
variable {s : State} {l : Nat} {tag : BitVec 16} {before after : List Outstanding}

/-- The end of the ENABLE_LINK that a link owes. -/
theorem endLinkCommand_enable (st : AdminStatus) (owed : (s.link l).outstanding = some .enable)
    (owes : s.owes { operation := .enableLink l, tag := tag } before after) : endLinkCommand l st s =
      adminComplete tag 0x20 st 0 ((s.setLink l { s.link l with outstanding := none }).onAp fun b =>
        { b with outstanding := before ++ after }) := by
  rw [endLinkCommand, owed]
  exact endLong_owed (s := s.setLink l _) st 0 owes

/-- The same after a message on the link. -/
theorem endLinkCommand_enable_sent (st : AdminStatus) (m : LinkMessage) {x : LinkContext}
    (owed : x.outstanding = some .enable) (owes : s.owes { operation := .enableLink l, tag := tag } before after) :
    endLinkCommand l st ((s.setLink l x).send l m) =
      adminComplete tag 0x20 st 0 (((s.setLink l { x with outstanding := none }).send l m).onAp fun b =>
        { b with outstanding := before ++ after }) := by
  have here : ((s.setLink l x).send l m).link l = x := by simp
  have twice : ((s.setLink l x).send l m).setLink l { x with outstanding := none } =
      (s.setLink l { x with outstanding := none }).send l m :=
    congrArg (fun v : State => v.send l m) (State.setLink_setLink ..)
  rw [endLinkCommand_enable (s := (s.setLink l x).send l m) st (by rw [here]; exact owed) owes, here, twice]

/-- A link given up in AWAIT_PARTNER (R77, R78): the timers stopped, the message sent, the credit 0, DISABLED, and the
ENABLE_LINK ended. -/
theorem endAwaiting (st : AdminStatus) (m : LinkMessage) (owed : (s.link l).outstanding = some .enable)
    (owes : s.owes { operation := .enableLink l, tag := tag } before after) :
    endLinkCommand l st (clearCredit l .disabled
      ((s.setLink l { s.link l with offerTimer := none, linkUpTimer := none }).send l m)) =
    adminComplete tag 0x20 st 0 (((s.setLink l { s.link l with
      state := .disabled, announced := [], available := [], offerTimer := none, linkUpTimer := none,
      outstanding := none }).send l m).onAp fun b => { b with outstanding := before ++ after }) := by
  rw [clearCredit_send, clearCredit_setLink]
  exact endLinkCommand_enable_sent st m owed owes

/-- The end of the DISABLE_LINK that a link owes. -/
theorem endLinkCommand_disable (st : AdminStatus) (owed : (s.link l).outstanding = some .disable)
    (owes : s.owes { operation := .disableLink l, tag := tag } before after) : endLinkCommand l st s =
      adminComplete tag 0x21 st 0 ((s.setLink l { s.link l with outstanding := none }).onAp fun b =>
        { b with outstanding := before ++ after }) := by
  rw [endLinkCommand, owed]
  exact endLong_owed (s := s.setLink l _) st 0 owes

theorem applyAtDeparture_none (still : (s.sched l).activation = false) : applyAtDeparture l s = s :=
  if_neg (by simp [still])

theorem applyAtDeparture_owed (pending : (s.sched l).activation = true)
    (owes : s.owes { operation := .activateCalendar l, tag := tag } before after) : applyAtDeparture l s =
      adminComplete tag 0x31 .ok 0 ((s.setSched l { s.sched l with
        active := (s.sched l).shadow, pointer := 0, activation := false }).onAp fun b =>
          { b with outstanding := before ++ after }) :=
  (if_pos pending).trans (applyActivation_owed owes)

end

/-! ### ENABLE_LINK and DISABLE_LINK -/

/-- A command whose event ends in a state with the command's read gone on. -/
theorem command_taken {s : State} {c : Instr} {effect : State → State} (arrives : s.commandArrives)
    (taken : exec c s = .next (takeCommand effect s)) {v : State} (effects : effect s.atDecision = v) :
    exec c s = .next (startCommandRead v) := by
  rw [taken, takeCommand_arrives _ arrives]
  show Outcome.next (startCommandRead (effect s.atDecision)) = _
  rw [effects]

theorem exec_enableLink (tag : BitVec 16) (link : BitVec 8) (timeout : BitVec 16) (s : State) :
    exec (.enableLink tag link timeout) s = .next (takeCommand (enableLink tag link.toNat timeout.toNat) s) := by rfl

theorem exec_disableLink (tag : BitVec 16) (link : BitVec 8) (s : State) :
    exec (.disableLink tag link) s = .next (takeCommand (disableLink tag link.toNat) s) := by rfl

/-- Settles O33: the checks first, then the link's state. -/
theorem linkEnabled : Obligations.LinkEnabled := by
  unfold Obligations.LinkEnabled
  intro s tag link timeout arrives
  dsimp only
  have checked {st : AdminStatus} (effects : enableLink tag link.toNat timeout.toNat s.atDecision =
      adminComplete tag 0x20 st 0 s.atDecision) :
      exec (.enableLink tag link timeout) s = .next (s.atDecision.answered tag 0x20 st 0) :=
    command_answered arrives (exec_enableLink ..) effects
  refine ⟨fun bad => checked (if_pos (by omega)), fun inside low high => ?_⟩
  have good : enableLink tag link.toNat timeout.toNat s.atDecision = match (s.link link.toNat).state with
      | .disabled | .failed => beginEnable tag link.toNat timeout.toNat s.atDecision
      | .awaitPartner | .draining => adminComplete tag 0x20 .busy 0 s.atDecision
      | .active => adminComplete tag 0x20 .badState 0 s.atDecision := if_neg (by omega)
  refine ⟨fun state => command_taken arrives (exec_enableLink ..) ?_, fun state => checked ?_, fun state => checked ?_⟩
  · rw [good]
    rcases state with state | state <;> (rw [state]; rfl)
  · rw [good]
    rcases state with state | state <;> rw [state]
  · rw [good, state]

/-- Settles O34: the checks first, then the link's state; in ACTIVE the serializer and the pending activation decide. -/
theorem linkDisabled : Obligations.LinkDisabled := by
  unfold Obligations.LinkDisabled
  intro s tag link arrives
  dsimp only
  have answers {st : AdminStatus} {v : State} (effects : disableLink tag link.toNat s.atDecision =
      adminComplete tag 0x21 st 0 v) : exec (.disableLink tag link) s = .next (v.answered tag 0x21 st 0) :=
    command_answered arrives (exec_disableLink ..) effects
  refine ⟨fun above => answers (if_pos above), fun inside => ?_⟩
  have good : disableLink tag link.toNat s.atDecision = match (s.link link.toNat).state with
      | .disabled => adminComplete tag 0x21 .ok 0 s.atDecision
      | .awaitPartner => disableAwaiting tag link.toNat s.atDecision
      | .active => disableActive tag link.toNat s.atDecision
      | .draining => adminComplete tag 0x21 .busy 0 s.atDecision
      | .failed => adminComplete tag 0x21 .ok 0 (clearCredit link.toNat .disabled s.atDecision) :=
    if_neg (Nat.not_lt.mpr inside)
  refine ⟨fun state => answers (by rw [good, state]), fun state => answers (by rw [good, state]; rfl),
    fun state => answers (by rw [good, state]), fun state owed tag' before after owes => answers ?_,
    fun state idle => ⟨fun still => command_taken arrives (exec_disableLink ..) ?_,
      fun pending tag' before after owes => command_taken arrives (exec_disableLink ..) ?_⟩,
    fun state busy still => command_taken arrives (exec_disableLink ..) ?_,
    fun state busy pending tag' before after owes => command_taken arrives (exec_disableLink ..) ?_⟩
  · rw [good, state]
    show adminComplete tag 0x21 .ok 0 (endLinkCommand link.toNat .aborted (clearCredit link.toNat .disabled _)) = _
    rw [endAwaiting (s := s.atDecision) (before := before) (after := after) .aborted _ owed owes]
    rfl
  · rw [good, state]
    show disableActive tag link.toNat s.atDecision = _
    rw [disableActive, if_pos (show (s.atDecision.link link.toNat).serializer = none from idle), applyAtDeparture_none (by simpa using still)]
    rfl
  · rw [good, state]
    show disableActive tag link.toNat s.atDecision = _
    rw [disableActive, if_pos (show (s.atDecision.link link.toNat).serializer = none from idle)]
    rw [applyAtDeparture_owed (by simpa using pending) (owes_congr (s := s) (by simp) owes)]
    simp [clearCredit]
    rfl
  · rw [good, state]
    show disableActive tag link.toNat s.atDecision = _
    rw [disableActive, if_neg (show (s.atDecision.link link.toNat).serializer ≠ none from busy),
      applyAtDeparture_none (by simpa using still)]
    rfl
  · rw [good, state]
    show disableActive tag link.toNat s.atDecision = _
    rw [disableActive, if_neg (show (s.atDecision.link link.toNat).serializer ≠ none from busy),
      applyAtDeparture_owed (by simpa using pending) (owes_append (s := s.atDecision.setLink link.toNat _) _ _ owes),
      ← List.append_assoc]
    rfl

end Sys2Proof.Proofs.LinkCommands

/-! The partner's messages and the link timers that leave a link's frame alone (R70 to R77, R85), and the commands that
write a class map and a shadow calendar (R82, R96). -/

namespace Sys2Proof.Proofs.LinkMessages

open Sys2Proof Sys2Proof.Machine Host Sys2Proof.Proofs.Readings Sys2Proof.Proofs.Descriptors
open Sys2Proof.Proofs.Retirement Sys2Proof.Proofs.RingCommands Sys2Proof.Proofs.FlowCommands
open Sys2Proof.Proofs.LinkCommands

/-! ### READY and the timers -/

theorem exec_ready (l : Fin 4) (a b c d : BitVec 16) (s : State) : exec (.ready l a b c d) s = .next (
    if readyOk a b c d ∧ s.hp.device = .running ∧ (s.link l).state = .awaitPartner then
      bringUp l a.toNat b.toNat c.toNat d.toNat s
    else protocolError l s) := by rfl

theorem exec_offerTimerExpiry (l : Fin 4) (s : State) : exec (.offerTimerExpiry l) s = .next (
    if s.hp.device = .running ∧ (s.link l).state = .awaitPartner ∧ (s.link l).offerTimer.isSome then
      (s.setLink l { s.link l with offerTimer := some 1 }).send l (.offer l)
    else s) := by rfl

theorem exec_linkUpTimerExpiry (l : Fin 4) (s : State) : exec (.linkUpTimerExpiry l) s = .next (
    if s.hp.device = .running ∧ (s.link l).state = .awaitPartner ∧ (s.link l).linkUpTimer.isSome then
      endLinkCommand l .timeout (clearCredit l .disabled
        ((s.setLink l { s.link l with offerTimer := none, linkUpTimer := none }).send l (.down l)))
    else s) := by rfl

theorem readyOk_iff (a b c d : BitVec 16) : readyOk a b c d = true ↔
    a.toNat ≤ 1023 ∧ b.toNat ≤ 1023 ∧ c.toNat ≤ 1023 ∧ d.toNat ≤ 1023 := by
  simp only [readyOk, Bool.and_eq_true, decide_eq_true_iff, and_assoc]
  rfl

theorem queuesEmpty_iff (s : State) (l : Nat) : queuesEmpty s l = true ↔
    ∀ f < 128, (s.flow f).link = l → (s.flow f).queue = [] := by
  simp [queuesEmpty, flowTotal, imp_iff_not_or]

/-- The ES leaves a link whose queues are empty and whose calendar is not to change. -/
theorem consider_still {s : State} {l : Nat} (empty : ∀ f < 128, (s.flow f).link = l → (s.flow f).queue = [])
    (still : (s.sched l).activation = false) : consider l s = s := by
  rw [consider_empty ((queuesEmpty_iff ..).mpr empty), if_neg (by simp [still])]

/-- The link up, and the ENABLE_LINK it owed completed (R73). -/
theorem bringUp_owed {s : State} {l : Nat} {tag : BitVec 16} {before after : List Outstanding} (a b c d : Nat)
    (owed : (s.link l).outstanding = some .enable)
    (owes : s.owes { operation := .enableLink l, tag := tag } before after) : bringUp l a b c d s =
      consider l (adminComplete tag 0x20 .ok 0 ((s.setLink l { s.link l with
        state := .active, announced := fourLanes a b c d, available := fourLanes a b c d, offerTimer := none,
        linkUpTimer := none, outstanding := none }).onAp fun b => { b with outstanding := before ++ after })) := by
  have ended := endLinkCommand_enable (s := s.setLink l { s.link l with
    state := .active, announced := fourLanes a b c d, available := fourLanes a b c d, offerTimer := none,
    linkUpTimer := none }) (l := l) (tag := tag) (before := before) (after := after) .ok (by simpa using owed) owes
  simp only [State.link_setLink, if_true, State.setLink_setLink] at ended
  exact congrArg (consider l) ended

/-- Settles O35: the READY by the credit of its four lanes, the timers by whether they run. -/
theorem linkComesUpOrTimesOut : Obligations.LinkComesUpOrTimesOut := by
  unfold Obligations.LinkComesUpOrTimesOut
  refine ⟨fun s l c0 c1 c2 c3 tag before after small0 small1 small2 small3 running state owed owes =>
    ⟨fourLanes c0.toNat c1.toNat c2.toNat c3.toNat, ?_, ?_, ?_, ?_, ?_, fun empty still => ?_⟩, fun s l => ?_⟩
  · simp [fourLanes]
  · simp [fourLanes]
  · simp [fourLanes]
  · simp [fourLanes]
  · rw [exec_ready, if_pos ⟨(readyOk_iff ..).mpr ⟨small0, small1, small2, small3⟩, running, state⟩, bringUp_owed _ _ _ _ owed owes]
  · rw [exec_ready, if_pos ⟨(readyOk_iff ..).mpr ⟨small0, small1, small2, small3⟩, running, state⟩,
      bringUp_owed _ _ _ _ owed owes, consider_still (by simpa using empty) (by simpa using still)]
  · dsimp only
    refine ⟨fun running state => ⟨fun runs => ?_, fun runs owed tag before after owes => ?_⟩, fun idle => ?_, fun idle => ?_⟩
    · rw [exec_offerTimerExpiry, if_pos ⟨running, state, runs⟩]
    · rw [exec_linkUpTimerExpiry, if_pos ⟨running, state, runs⟩, endAwaiting _ _ owed owes]
    · rw [exec_offerTimerExpiry, if_neg]
      rintro ⟨running, state, runs⟩
      rcases idle with h | h | h
      · exact h running
      · exact h state
      · simp [h] at runs
    · rw [exec_linkUpTimerExpiry, if_neg]
      rintro ⟨running, state, runs⟩
      rcases idle with h | h | h
      · exact h running
      · exact h state
      · simp [h] at runs

/-! ### CREDIT, and the messages that are ignored -/

theorem exec_credit (l : Fin 4) (lane : BitVec 8) (count : BitVec 16) (s : State) : exec (.credit l lane count) s = .next (
    if lane.toNat < 4 ∧ 1 ≤ count.toNat ∧ count.toNat ≤ 1023 then
      if s.hp.device = .running ∧ ((s.link l).state = .active ∨ (s.link l).state = .draining) then
        takeCredit l lane.toNat count.toNat s
      else s
    else protocolError l s) := by rfl

theorem exec_down (l : Fin 4) (field : BitVec 8) (s : State) : exec (.down l field) s = .next (
    if s.hp.device = .running then
      match (s.link l).state with
      | .active => failLinkEvent l .partnerDown s
      | .draining => downInDrain l s
      | .disabled | .awaitPartner | .failed => s
    else s) := by rfl

theorem exec_malformedMessage (l : Fin 4) (s : State) : exec (.malformedMessage l) s = .next (protocolError l s) := by rfl

/-- A link that runs no frames, or a part that is not RUNNING, fails for no message (R70, R85). -/
theorem protocolError_ignored {s : State} {l : Nat} (idle : s.hp.device ≠ .running ∨ (s.link l).state = .disabled ∨
    (s.link l).state = .awaitPartner ∨ (s.link l).state = .failed) : protocolError l s = s := by
  refine if_neg ?_
  rintro ⟨running, state⟩
  rcases idle with h | h | h | h
  · exact h running
  all_goals simp [h] at state

/-- Settles O36: by the state of the link that the message reaches. -/
theorem creditTakenOrMessageIgnored : Obligations.CreditTakenOrMessageIgnored := by
  unfold Obligations.CreditTakenOrMessageIgnored
  intro s l lane field count a b c d
  refine ⟨fun running live small low high within => ?_, fun idle => ⟨?_, ?_, ?_⟩, fun idle => ?_⟩
  · have taken : exec (.credit l lane count) s = .next (consider l (s.setAvailable l lane.toNat
        (s.available l lane.toNat + count.toNat))) := by
      rw [exec_credit, if_pos ⟨small, low, high⟩, if_pos ⟨running, live⟩, takeCredit, if_pos within]
    refine ⟨fun _ => taken, fun draining => ?_⟩
    rw [taken, consider_not_active (by simp [State.setAvailable, draining])]
    rfl
  · rw [exec_credit]
    split
    · rw [if_neg]
      rintro ⟨running, state⟩
      rcases idle with h | h | h | h
      · exact h running
      all_goals simp [h] at state
    · rw [protocolError_ignored idle]
  · rw [exec_down]
    split
    · next running =>
      rcases idle with h | h | h | h
      · exact absurd running h
      all_goals rw [h]
    · rfl
  · rw [exec_malformedMessage, protocolError_ignored idle]
  · rw [exec_ready, if_neg, protocolError_ignored]
    · rcases idle with h | h | h | ⟨h, -⟩
      · exact .inl h
      · exact .inr (.inl h)
      · exact .inr (.inr (.inr h))
      · exact .inr (.inr (.inl h))
    · rw [readyOk_iff]
      rintro ⟨small, running, state⟩
      rcases idle with h | h | h | ⟨-, large⟩
      · exact h running
      · simp [h] at state
      · simp [h] at state
      · omega

/-! ### SET_CLASS_MAP and WRITE_CALENDAR -/

theorem exec_setClassMap (tag : BitVec 16) (link mask : BitVec 8) (lanes : BitVec 64) (s : State) :
    exec (.setClassMap tag link mask lanes) s = .next (takeCommand (fun t =>
      shortCommand tag 0x22 (setClassMapStatus t link.toNat lanes) (fun u =>
        u.setSched link.toNat { u.sched link.toNat with classMap := classMapOf lanes, mask := mask }) t) s) := by rfl

theorem exec_writeCalendar (tag : BitVec 16) (link start count blank : BitVec 8) (entries : BitVec 448) (s : State) :
    exec (.writeCalendar tag link start count blank entries) s = .next (takeCommand (fun t =>
      shortCommand tag 0x30 (writeCalendarStatus t link.toNat start.toNat count.toNat) (fun u =>
        u.setSched link.toNat { u.sched link.toNat with
          shadow := writtenShadow (u.sched link.toNat).shadow start.toNat count.toNat blank entries }) t) s) := by rfl

/-- Consecutive entries of a table written one after another. -/
theorem tableGet_written {α : Type} [DecidableEq α] (u : Nat → α) (t : Table α) (start : Nat) (v : Nat → α) (n p : Nat) :
    tableGet u ((List.range n).foldl (fun t j => tableSet u t (start + j) (v j)) t) p =
      if start ≤ p ∧ p < start + n then v (p - start) else tableGet u t p := by
  induction n with
  | zero => rw [if_neg (by omega)]; rfl
  | succ n ih =>
    rw [List.range_succ, List.foldl_append, List.foldl_cons, List.foldl_nil, tableGet_set, ih]
    by_cases last : p = start + n
    · rw [if_pos last, if_pos (by omega), last, Nat.add_sub_cancel_left]
    · rw [if_neg last]
      exact if_congr (by omega) rfl rfl

theorem classLane_eq (lanes : BitVec 64) (c : Nat) : classLane lanes c = lanes.toNat / 256 ^ c % 256 := by
  rw [classLane, BitVec.extractLsb'_toNat, Nat.shiftRight_eq_div_pow, Nat.pow_mul]

theorem calendarEntry_eq (entries : BitVec 448) (blank : BitVec 8) (j : Nat) : calendarEntry entries blank j =
    if entries.toNat / 128 ^ j % 128 = blank.toNat then .none else some (entries.toNat / 128 ^ j % 128) := by
  have value : (entries.extractLsb' (7 * j) 7).toNat = entries.toNat / 128 ^ j % 128 := by
    rw [BitVec.extractLsb'_toNat, Nat.shiftRight_eq_div_pow, Nat.pow_mul]
  rw [calendarEntry, value]

theorem classMapOf_lane (lanes : BitVec 64) {c : Nat} (inside : c < 8) :
    tableGet laneUnlisted (classMapOf lanes) c = lanes.toNat / 256 ^ c % 256 := by
  have written := tableGet_written laneUnlisted [] 0 (classLane lanes) 8 c
  simp only [Nat.zero_add, Nat.zero_le, inside, and_self, if_true, Nat.sub_zero] at written
  rw [← classLane_eq, ← written]
  rfl

theorem setClassMapStatus_bad {s : State} {l : Nat} {lanes : BitVec 64}
    (bad : 3 < l ∨ ∃ c < 8, 3 < lanes.toNat / 256 ^ c % 256) : setClassMapStatus s l lanes = .badParameter := by
  simp only [← classLane_eq] at bad
  exact if_pos (by simpa using bad)

theorem setClassMapStatus_good {s : State} {l : Nat} {lanes : BitVec 64} (inside : l ≤ 3)
    (good : ∀ c < 8, lanes.toNat / 256 ^ c % 256 ≤ 3) :
    setClassMapStatus s l lanes = if (s.link l).state = .disabled then .ok else .badState := by
  simp only [← classLane_eq] at good
  refine if_neg ?_
  simp only [List.any_eq_true, List.mem_range, decide_eq_true_eq, not_or, not_exists, not_and, Nat.not_lt]
  exact ⟨inside, good⟩

/-- The operands of WRITE_CALENDAR that its checks accept (R96). -/
def calendarParameters (l start count : Nat) : Prop :=
  l ≤ 3 ∧ start ≤ 63 ∧ 1 ≤ count ∧ count ≤ 64 ∧ start + count ≤ 64

theorem writeCalendarStatus_bad {s : State} {l start count : Nat} (bad : ¬ calendarParameters l start count) :
    writeCalendarStatus s l start count = .badParameter :=
  if_pos (by unfold calendarParameters at bad; omega)

theorem writeCalendarStatus_good {s : State} {l start count : Nat} (good : calendarParameters l start count) :
    writeCalendarStatus s l start count = if (s.sched l).activation = true then .busy else .ok :=
  if_neg (by unfold calendarParameters at good; omega)

/-- Settles O38: each command by its checks, and the tables it writes read entry by entry. -/
theorem classMapAndCalendarWritten : Obligations.ClassMapAndCalendarWritten := by
  unfold Obligations.ClassMapAndCalendarWritten
  intro s tag link mask start count blank lanes entries arrives
  dsimp only
  refine ⟨fun bad => ?_, fun inside good => ⟨fun up => ?_, fun disabled => ?_⟩, fun bad => ?_, fun good busy => ?_,
    fun good still => ?_⟩
  · exact short_refused arrives (exec_setClassMap ..) (setClassMapStatus_bad bad) (by simp)
  · refine short_refused arrives (exec_setClassMap ..) ?_ (by simp)
    rw [setClassMapStatus_good inside good]
    exact if_neg up
  · refine ⟨classMapOf lanes, fun c small => classMapOf_lane lanes small, ?_⟩
    have checked : setClassMapStatus s.atDecision link.toNat lanes = .ok := by
      rw [setClassMapStatus_good inside good]; exact if_pos disabled
    have taken := short_ok arrives (exec_setClassMap tag link mask lanes s) checked
    exact taken
  · refine short_refused arrives (exec_writeCalendar ..) ?_ (by simp)
    exact writeCalendarStatus_bad bad
  · refine short_refused arrives (exec_writeCalendar ..) ?_ (by simp)
    rw [writeCalendarStatus_good good]
    exact if_pos busy
  · refine ⟨writtenShadow (s.sched link.toNat).shadow start.toNat count.toNat blank entries, fun p => ?_, ?_⟩
    · rw [writtenShadow, tableGet_written calendarUnlisted, calendarEntry_eq]
    · have checked : writeCalendarStatus s.atDecision link.toNat start.toNat count.toNat = .ok := by
        rw [writeCalendarStatus_good good]
        exact if_neg (by simp [still])
      have taken := short_ok arrives (exec_writeCalendar tag link start count blank entries s) checked
      exact taken

end Sys2Proof.Proofs.LinkMessages

/-! Reports to the EC, the completions of the resets, and the ends of long commands (R37, R64, R79, R97, R98, R148,
R156, R157, R162 to R164, R174). -/

namespace Sys2Proof.Proofs.Ends

open Sys2Proof Sys2Proof.Machine Host Sys2Proof.Proofs.Readings Sys2Proof.Proofs.Descriptors
open Sys2Proof.Proofs.Retirement Sys2Proof.Proofs.RingCommands Sys2Proof.Proofs.FlowCommands
open Sys2Proof.Proofs.LinkCommands Sys2Proof.Proofs.LinkMessages Sys2Proof.Proofs.HostReads

/-! ### The resets' completions -/

/-- The datapath at its reset values, with the device state to come (R162). -/
def cleared (device : DeviceState) (s : State) : State := (resetDatapath s).onHp fun b => { b with device := device }

theorem abortOutstanding_eq (es : List Outstanding) (s : State) : abortOutstanding es s =
    (es.foldl (fun v e => adminComplete e.tag e.operation.kind .aborted 0 v) s).onAp fun b => { b with outstanding := [] } := by
  induction es generalizing s with
  | nil => rfl
  | cons e es ih => exact ih _

theorem completeSelfReset_escalates {s : State} (multiple : s.ec.multiple = true) :
    completeSelfReset s = raiseNotice (.fatalError s.ec.fatalCause) (cleared .failed s) := if_pos multiple

theorem completeSelfReset_returns {s : State} (single : s.ec.multiple = false) : completeSelfReset s = startCommandRead
    ((raiseNotice (.selfResetDone s.ec.fatalCause) (abortOutstanding s.ap.outstanding (cleared .running s))).onEc fun b =>
      { b with fatalCause := none }) := by
  have cause : (abortOutstanding s.ap.outstanding (cleared .running s)).ec.fatalCause = s.ec.fatalCause := by
    simp [cleared, resetDatapath]
  rw [← cause]
  exact if_neg (by simp [resetDatapath, single])

/-- Settles O48: each completion by the device state and the reads outstanding. -/
theorem resetsComplete : Obligations.ResetsComplete := by
  unfold Obligations.ResetsComplete
  intro s
  dsimp only
  refine ⟨fun empty => ⟨fun device multiple => ?_, fun device single => ?_, fun device => ?_⟩, fun waits => ?_, fun waits => ?_⟩
  · rw [exec_selfResetCompletion, if_pos ⟨device, (readsEmpty_iff s).mpr empty⟩, completeSelfReset_escalates multiple]
    rfl
  · rw [exec_selfResetCompletion, if_pos ⟨device, (readsEmpty_iff s).mpr empty⟩, completeSelfReset_returns single,
      abortOutstanding_eq]
    rfl
  · rw [exec_functionResetCompletion, if_pos ⟨device, (readsEmpty_iff s).mpr empty⟩]
    rfl
  · rw [exec_selfResetCompletion, if_neg]
    rintro ⟨device, empty⟩
    rcases waits with h | ⟨i, inside, outstanding⟩
    · exact h device
    · exact outstanding ((readsEmpty_iff s).mp empty i inside)
  · rw [exec_functionResetCompletion, if_neg]
    rintro ⟨device, empty⟩
    rcases waits with h | ⟨i, inside, outstanding⟩
    · exact h device
    · exact outstanding ((readsEmpty_iff s).mp empty i inside)

/-! ### Reports and the error policy -/

theorem exec_correctionReport (m : ProtectedMemory) (s : State) : exec (.correctionReport m) s =
    execCorrectionReport m s := by rfl

theorem exec_cellDataErrorReport (l : Fin 4) (c : Fin 8192) (s : State) : exec (.cellDataErrorReport l c) s =
    execCellDataErrorReport l c s := by rfl

theorem exec_setErrorPolicy (tag : BitVec 16) (threshold : Word32) (s : State) : exec (.setErrorPolicy tag threshold) s =
    .next (takeCommand (fun t => shortCommand tag 0x40
      (if threshold.toNat < 1 ∨ 65535 < threshold.toNat then .badParameter else .ok)
      (fun u => u.onEc fun b => { b with threshold := threshold.toNat }) t) s) := by rfl

theorem correctionReport_taken {s : State} (m : ProtectedMemory) (device : s.hp.device = .running ∨ s.hp.device = .failed) :
    exec (.correctionReport m) s = .next (countCorrection m (takeReport (.correction m) s)) := by
  rw [exec_correctionReport, execCorrectionReport]
  rcases device with d | d <;> simp [takeReport, d]

theorem correctionReport_discarded {s : State} (m : ProtectedMemory)
    (device : s.hp.device = .stopped ∨ s.hp.device = .selfResetting ∨ s.hp.device = .resetting) :
    exec (.correctionReport m) s = .next (takeReport (.correction m) s) := by
  rw [exec_correctionReport, execCorrectionReport]
  rcases device with d | d | d <;> simp [takeReport, d]

theorem cellDataErrorReport_taken {s : State} (l : Fin 4) (c : Fin 8192)
    (device : s.hp.device = .running ∨ s.hp.device = .failed) : exec (.cellDataErrorReport l c) s =
      .next (raiseNotice (.cellDataError l c) (takeReport (.cellData l c) s)) := by
  rw [exec_cellDataErrorReport, execCellDataErrorReport]
  rcases device with d | d <;> simp [takeReport, d]

theorem cellDataErrorReport_discarded {s : State} (l : Fin 4) (c : Fin 8192)
    (device : s.hp.device = .stopped ∨ s.hp.device = .selfResetting ∨ s.hp.device = .resetting) :
    exec (.cellDataErrorReport l c) s = .next (takeReport (.cellData l c) s) := by
  rw [exec_cellDataErrorReport, execCellDataErrorReport]
  rcases device with d | d | d <;> simp [takeReport, d]

/-- A self-reset keeps the correction threshold (R162). -/
theorem completeSelfReset_threshold (s : State) : (completeSelfReset s).ec.threshold = s.ec.threshold := by
  have kept (n : Notice) (u : State) : (raiseNotice n u).ec.threshold = u.ec.threshold := by
    obtain ⟨-, -, -, threshold, -⟩ := EcBlock.fields_of_fixed (show (raiseNotice n u).ec.fixed = u.ec.fixed by simp)
    exact threshold
  cases multiple : s.ec.multiple
  · rw [completeSelfReset_returns multiple]
    simp [kept, cleared, resetDatapath]
  · rw [completeSelfReset_escalates multiple, kept]
    rfl

/-- Settles O46: the reports by the device state, the policy by its check, and the threshold over the resets. -/
theorem errorPolicyAndReports : Obligations.ErrorPolicyAndReports := by
  unfold Obligations.ErrorPolicyAndReports
  refine ⟨fun s m l c => ?_, fun s tag threshold => ⟨fun arrives => ⟨fun good => ?_, fun bad => ?_⟩, ?_, ?_, ?_⟩⟩
  · dsimp only
    refine ⟨fun device => ⟨fun below => ?_, fun reached => ?_, ?_⟩, fun device => ⟨?_, ?_⟩⟩
    · rw [correctionReport_taken m device, countCorrection]
      cases m <;> exact congrArg _ (if_neg (Nat.not_le.mpr below))
    · rw [correctionReport_taken m device, countCorrection]
      cases m <;> exact congrArg _ (if_pos reached)
    · rw [cellDataErrorReport_taken l c device]
      rfl
    · rw [correctionReport_discarded m device]
      rfl
    · rw [cellDataErrorReport_discarded l c device]
      rfl
  · obtain ⟨low, high⟩ := good
    have taken := short_ok arrives (exec_setErrorPolicy tag threshold s) (if_neg (by omega))
    exact taken
  · exact short_refused arrives (exec_setErrorPolicy ..) (if_pos (by omega)) (by simp)
  · rw [exec_selfResetCompletion]
    split
    · exact ⟨_, rfl, completeSelfReset_threshold s⟩
    · exact ⟨_, rfl, rfl⟩
  · intro device empty
    rw [exec_functionResetCompletion, if_pos ⟨device, empty⟩]
    exact ⟨_, rfl, rfl⟩
  · exact ⟨_, rfl, rfl⟩

/-! ### The ends of long commands -/

theorem exec_flushEnd (f : Fin 128) (s : State) : exec (.flushEnd f) s =
    .next (if s.hp.device = .running then endFlush f s else s) := by rfl

theorem exec_deletionEnd (n : Fin 32) (s : State) : exec (.deletionEnd n) s =
    .next (if s.hp.device = .running then endDeletion n s else s) := by rfl

theorem exec_drainEnd (l : Fin 4) (s : State) : exec (.drainEnd l) s =
    .next (if s.hp.device = .running ∧ (s.link l).state = .draining ∧ (s.link l).serializer = none then endDrain l s
      else s) := by rfl

theorem exec_activationApply (l : Fin 4) (s : State) : exec (.activationApply l) s =
    .next (if s.hp.device = .running ∧ (s.sched l).activation
        ∧ ((s.link l).state ≠ .active ∨ ((s.link l).serializer = none ∧ queuesEmpty s l)) then
      applyActivation l s else s) := by rfl

/-- A drain that ends with its command (R79). -/
theorem endDrain_owed {s : State} {l : Nat} {tag : BitVec 16} {before after : List Outstanding}
    (owed : (s.link l).outstanding = some .disable)
    (owes : s.owes { operation := .disableLink l, tag := tag } before after) : endDrain l s =
      adminComplete tag 0x21 .ok 0 (((s.send l (.down l)).setLink l { s.link l with
        state := .disabled, announced := [], available := [], outstanding := none }).onAp fun b =>
          { b with outstanding := before ++ after }) := by
  have ended := endLinkCommand_disable (s := clearCredit l .disabled (s.send l (.down l))) (l := l) (tag := tag)
    (before := before) (after := after) .ok (by simpa [clearCredit] using owed) owes
  rw [endDrain, ended]
  simp only [clearCredit, State.link_setLink, if_true, State.setLink_setLink, State.send_reads]

/-- Settles O49: each end where its condition holds, and nothing elsewhere. -/
theorem longCommandsEnd : Obligations.LongCommandsEnd := by
  unfold Obligations.LongCommandsEnd
  intro s f n l tag before after
  dsimp only
  refine ⟨fun running => ⟨fun flushing empty owes => ?_, fun deleting empty owes => ?_, fun draining idle owed owes => ?_⟩,
    fun idle => ?_, fun idle => ?_, fun idle => ?_⟩
  · rw [exec_flushEnd, if_pos running, endFlush_owed flushing empty owes]
  · rw [exec_deletionEnd, if_pos running, FetchSlots.endDeletion_owed deleting empty owes]
  · rw [exec_drainEnd, if_pos ⟨running, draining, idle⟩, endDrain_owed owed owes]
  · rw [exec_flushEnd]
    split
    · next running => rw [endFlush_waits fun ⟨flushing, empty⟩ => by simp [running, flushing, empty] at idle]
    · rfl
  · rw [exec_deletionEnd]
    split
    · next running => rw [endDeletion_denied fun ⟨deleting, empty⟩ => by simp [running, deleting, empty] at idle]
    · rfl
  · rw [exec_drainEnd, if_neg]
    rintro ⟨running, draining, empty⟩
    simp [running, draining, empty] at idle

/-! ### Calendar activation -/

theorem exec_activateCalendar (tag : BitVec 16) (link : BitVec 8) (s : State) : exec (.activateCalendar tag link) s =
    .next (takeCommand (activateCalendar tag link.toNat) s) := by rfl

/-- A link on which a pending activation is applied at once (R97, R98). -/
def freeToApply (s : State) (l : Nat) : Prop := (s.link l).state ≠ .active ∨
  ((s.link l).serializer = none ∧ ∀ f < 128, (s.flow f).link = l → (s.flow f).queue = [])

/-- A command that applies its own activation (R98). -/
theorem beginActivation_free {u : State} {l : Nat} (tag : BitVec 16) (running : u.hp.device = .running)
    (free : freeToApply u l) (fresh : ∀ x ∈ u.ap.outstanding, x.operation ≠ .activateCalendar l) :
    beginActivation tag l u = adminComplete tag 0x31 .ok 0 (u.setSched l { u.sched l with
      active := (u.sched l).shadow, pointer := 0, activation := false }) := by
  have owes : (appendOutstanding (.activateCalendar l) tag (u.setSched l { u.sched l with activation := true })).owes
      { operation := .activateCalendar l, tag := tag } u.ap.outstanding [] := ⟨rfl, fresh⟩
  have applied : applyActivation l (appendOutstanding (.activateCalendar l) tag
      (u.setSched l { u.sched l with activation := true })) = adminComplete tag 0x31 .ok 0 (u.setSched l { u.sched l with
        active := (u.sched l).shadow, pointer := 0, activation := false }) := by
    have twice := State.setSched_setSched u l { u.sched l with activation := true } { u.sched l with
      active := (u.sched l).shadow, pointer := 0, activation := false }
    rw [applyActivation_owed owes, List.append_nil]
    simp only [appendOutstanding_reads, State.sched_setSched, if_true]
    rw [← twice]
    rfl
  unfold beginActivation
  dsimp only
  split
  · next active =>
    rcases free with up | ⟨idle, empty⟩
    · exact absurd (by simpa using active) up
    · rw [consider_empty ((queuesEmpty_iff ..).mpr (by simpa using empty)), if_pos, applied]
      exact ⟨running, active, by simpa using idle, by simp⟩
  · exact applied

/-- Settles O39: the command by its checks and by what the link allows, and the row's own event. -/
theorem calendarActivated : Obligations.CalendarActivated := by
  unfold Obligations.CalendarActivated
  intro s tag link
  dsimp only
  refine ⟨fun arrives => ⟨fun above => ?_, fun inside busy => ?_, fun inside still => ?_⟩,
    fun n => ⟨fun running pending free before after owes => ?_, fun denied => ?_⟩⟩
  · exact command_answered arrives (exec_activateCalendar ..) (if_pos above)
  · refine command_answered arrives (exec_activateCalendar ..) ?_
    rw [activateCalendar, if_neg (Nat.not_lt.mpr inside)]
    exact if_pos busy
  · have begins : activateCalendar tag link.toNat s.atDecision = beginActivation tag link.toNat s.atDecision := by
      rw [activateCalendar, if_neg (Nat.not_lt.mpr inside)]
      exact if_neg (by simp [still])
    obtain ⟨running, -, -⟩ := id arrives
    refine ⟨fun free fresh => command_answered arrives (exec_activateCalendar ..) (begins.trans
      (beginActivation_free (u := s.atDecision) tag running free fresh)), fun active busy => ?_, fun active idle waits => ?_⟩
    · refine command_taken arrives (exec_activateCalendar ..) (begins.trans ?_)
      rw [beginActivation, if_pos (by simpa using active), consider_busy (by simpa using busy)]
      rfl
    · refine command_taken arrives (exec_activateCalendar ..) (begins.trans ?_)
      rw [beginActivation, if_pos (by simpa using active)]
      rfl
  · rw [exec_activationApply, if_pos, applyActivation_owed owes]
    exact ⟨running, pending, free.imp id fun ⟨idle, empty⟩ => ⟨idle, (queuesEmpty_iff ..).mpr empty⟩⟩
  · rw [exec_activationApply, if_neg]
    rintro ⟨running, pending, free⟩
    rcases denied with h | h | h
    · exact h running
    · simp [pending] at h
    · exact h (free.imp id fun ⟨idle, empty⟩ => ⟨idle, (queuesEmpty_iff ..).mp empty⟩)

end Sys2Proof.Proofs.Ends

/-! The entries into FAILED, SELF_RESETTING and RESETTING (R85, R132, R158 to R161, R163, R174, R178). -/

namespace Sys2Proof.Proofs.Containment

open Sys2Proof Sys2Proof.Machine Host Sys2Proof.Proofs.Readings Sys2Proof.Proofs.Descriptors
open Sys2Proof.Proofs.Retirement Sys2Proof.Proofs.HostReads

/-! ### Operations on every link -/

/-- An operation on one link: what it makes of the link's context, the messages it sends there, and nothing else. -/
structure LinkOp (f : Nat → State → State) (g : LinkContext → LinkContext)
    (m : Nat → LinkContext → List (Nat × LinkMessage)) : Prop where
  keeps : ∀ l s, { f l s with lu := s.lu } = s
  link : ∀ l s k, (f l s).link k = if k = l then g (s.link l) else s.link k
  out : ∀ l s, (f l s).lu.out = s.lu.out ++ m l (s.link l)

section
variable {f e : Nat → State → State} {g d : LinkContext → LinkContext} {m n : Nat → LinkContext → List (Nat × LinkMessage)}

theorem LinkOp.comp (first : LinkOp f g m) (second : LinkOp e d n) :
    LinkOp (fun l s => e l (f l s)) (fun c => d (g c)) (fun l c => m l c ++ n l (g c)) := by
  refine ⟨fun l s => ?_, fun l s k => ?_, fun l s => ?_⟩
  · have inner := first.keeps l s
    have outer := second.keeps l (f l s)
    calc { e l (f l s) with lu := s.lu } = { { e l (f l s) with lu := (f l s).lu } with lu := s.lu } := rfl
      _ = { f l s with lu := s.lu } := by rw [outer]
      _ = s := inner
  · rw [second.link, first.link, first.link]
    by_cases here : k = l <;> simp [here]
  · rw [second.out, first.out, first.link, if_pos rfl, List.append_assoc]

theorem LinkOp.forLinks_keeps (op : LinkOp f g m) (s : State) : { forLinks f s with lu := s.lu } = s := by
  unfold forLinks
  generalize List.range linkTotal = ls
  induction ls generalizing s with
  | nil => rfl
  | cons l ls ih =>
    calc _ = { { ls.foldl (fun t l => f l t) (f l s) with lu := (f l s).lu } with lu := s.lu } := rfl
      _ = { f l s with lu := s.lu } := by rw [ih]
      _ = s := op.keeps l s

theorem LinkOp.forLinks_link (op : LinkOp f g m) (s : State) {k : Nat} (inside : k < 4) :
    (forLinks f s).link k = g (s.link k) := by
  show (f 3 (f 2 (f 1 (f 0 s)))).link k = _
  obtain rfl | rfl | rfl | rfl : k = 0 ∨ k = 1 ∨ k = 2 ∨ k = 3 := by omega
  all_goals simp [op.link]

theorem LinkOp.forLinks_out (op : LinkOp f g m) (s : State) :
    (forLinks f s).lu.out = s.lu.out ++ ([0, 1, 2, 3].map fun l => m l (s.link l)).flatten := by
  show (f 3 (f 2 (f 1 (f 0 s)))).lu.out = _
  simp [op.link, op.out]

end

/-- A link's timers stopped and its serializer IDLE. -/
def quieted (c : LinkContext) : LinkContext := { c with serializer := none, offerTimer := none, linkUpTimer := none }

/-- A link taken down by containment (R160), unless DISABLED. -/
def takenDown (c : LinkContext) : LinkContext :=
  if c.state = .disabled then c
  else { c with announced := [], available := [], state := .failed, cause := some .containment }

/-- The ABORT marker of a busy serializer whose frame no failure has cut short (R69). -/
def abortMark (l : Nat) (c : LinkContext) : List (Nat × LinkMessage) :=
  if mayMark c then [(l, .endMarker false)] else []

/-- The DOWN of a link that is not DISABLED (R85). -/
def downMark (l : Nat) (c : LinkContext) : List (Nat × LinkMessage) :=
  if c.state = .disabled then [] else [(l, .down l)]

theorem quietLink_op : LinkOp quietLink quieted fun _ _ => [] := by
  refine ⟨fun l s => rfl, fun l s k => ?_, fun l s => by simp [quietLink]⟩
  by_cases here : k = l <;> simp [quietLink, quieted, here]

theorem markAbort_op : LinkOp markAbort id abortMark := by
  refine ⟨fun l s => ?_, fun l s k => ?_, fun l s => ?_⟩
  · unfold markAbort; split <;> rfl
  · unfold markAbort; split <;> by_cases here : k = l <;> simp [here]
  · unfold markAbort abortMark; split <;> simp

theorem sendDown_op : LinkOp sendDown id downMark := by
  refine ⟨fun l s => ?_, fun l s k => ?_, fun l s => ?_⟩
  · unfold sendDown; split <;> rfl
  · unfold sendDown; split <;> by_cases here : k = l <;> simp [here]
  · unfold sendDown downMark; split <;> simp

theorem haltLink_op : LinkOp haltLink quieted abortMark := by
  have both := markAbort_op.comp quietLink_op
  simp only [List.append_nil] at both
  exact both

theorem selfResetLink_op : LinkOp selfResetLink quieted fun l c => abortMark l c ++ downMark l c :=
  haltLink_op.comp sendDown_op

/-- The end of a link's entry into FAILED under HALT_LINKS_DOWN. -/
def writeDown (l : Nat) (s : State) : State :=
  if (s.link l).state = .disabled then s
  else s.setLink l { s.link l with announced := [], available := [], state := .failed, cause := some .containment }

theorem writeDown_op : LinkOp writeDown takenDown fun _ _ => [] := by
  refine ⟨fun l s => ?_, fun l s k => ?_, fun l s => ?_⟩
  · unfold writeDown; split <;> rfl
  · unfold writeDown takenDown; split <;> by_cases here : k = l <;> simp [here]
  · unfold writeDown; split <;> simp

theorem takeDownLink_op : LinkOp takeDownLink (fun c => takenDown (quieted c)) fun l c => abortMark l c ++ downMark l c := by
  have both := selfResetLink_op.comp writeDown_op
  simp only [List.append_nil] at both
  exact both

theorem resetLink_op (silent : Bool) : LinkOp (resetLink silent) quieted fun l c => if silent then [] else downMark l c := by
  cases silent
  · exact quietLink_op.comp sendDown_op
  · exact quietLink_op

/-! ### What every entry stops -/

theorem stopHoldoffs_cq (s : State) {n : Nat} (inside : n < 16) : (stopHoldoffs s).cq n = { s.cq n with timer := none } := by
  have all (ns : List Nat) (u : State) : (ns.foldl (fun t n => t.setCq n { t.cq n with timer := none }) u).cq n =
      if n ∈ ns then { u.cq n with timer := none } else u.cq n := by
    induction ns generalizing u with
    | nil => rfl
    | cons k ns ih =>
      rw [List.foldl_cons, ih]
      by_cases here : n = k
      · simp [here]
      · simp [here]
  rw [stopHoldoffs, all, if_pos (by simpa [cqTotal] using inside)]

/-- A state in which the timers, the reports on their way and the links have been stopped: the datapath, the AP and the
scheduler fields as they were, and the messages sent behind those of before. -/
structure Stopped (s t : State) (g : LinkContext → LinkContext) (sent : List (Nat × LinkMessage)) : Prop where
  bm : t.bm = { s.bm with fetchEnds := [] }
  dfu : t.dfu = s.dfu
  ap : t.ap = s.ap
  ec : t.ec = s.ec
  pending : t.pending = s.pending
  schedulers : t.es.schedulers = s.es.schedulers
  out : t.lu.out = s.lu.out ++ sent
  link : ∀ l < 4, t.link l = g (s.link l)
  cq : ∀ n < 16, t.cq n = { s.cq n with timer := none }

/-- What an entry into FAILED, SELF_RESETTING or RESETTING does before its notices or its completion. -/
theorem entry_stops {f : Nat → State → State} {g : LinkContext → LinkContext} {m : Nat → LinkContext → List (Nat × LinkMessage)}
    (op : LinkOp f g m) (s : State) (h : HpBlock → HpBlock) :
    let t := forLinks f (dropReports (stopHoldoffs (s.onHp h)))
    t.hp = h s.hp ∧ Stopped s t g ([0, 1, 2, 3].map fun l => m l (s.link l)).flatten := by
  dsimp only
  generalize dropped : dropReports (stopHoldoffs (s.onHp h)) = u
  have keeps := op.forLinks_keeps u
  have block {α : Type} (b : State → α) (same : ∀ v l, b { v with lu := l } = b v) : b (forLinks f u) = b u := by
    rw [← same (forLinks f u) u.lu, keeps]
  have link (l : Nat) : u.link l = s.link l := by rw [← dropped]; exact State.link_congr _ _ _ (by simp [dropReports])
  refine ⟨(block State.hp fun _ _ => rfl).trans (by simp [← dropped]), (block State.bm fun _ _ => rfl).trans ?_,
    (block State.dfu fun _ _ => rfl).trans (by simp [← dropped]), (block State.ap fun _ _ => rfl).trans (by simp [← dropped]),
    (block State.ec fun _ _ => rfl).trans (by simp [← dropped]), (block State.pending fun _ _ => rfl).trans (by simp [← dropped]),
    (block (fun v => v.es.schedulers) fun _ _ => rfl).trans ?_, ?_, fun l inside => ?_,
    fun n inside => (block (fun v => v.cq n) fun _ _ => rfl).trans ?_⟩
  · simp [← dropped, dropReports]
  · simp [← dropped, dropReports]
  · rw [op.forLinks_out, show u.lu.out = s.lu.out by simp [← dropped, dropReports]]
    simp only [link]
  · rw [op.forLinks_link _ inside, link]
  · rw [← dropped, State.cq_congr (stopHoldoffs (s.onHp h)) _ n (by simp), stopHoldoffs_cq _ inside]
    rfl

/-! ### A function reset's entry -/

theorem exec_hostLinkReset (s : State) : exec .hostLinkReset s = .next (startHostLinkReset s) := by rfl

/-- One read's response cut off (R178). -/
def cutOffRead (t : State) (i : Nat) : State :=
  match t.read i with
  | none => t
  | some r => t.setRead i (some { r with cutOff := true })

theorem cutOffReads_eq (s : State) : cutOffReads s = (List.range 9).foldl cutOffRead s := rfl

theorem cutOffRead_read (s : State) (k i : Nat) : (cutOffRead s k).read i =
    if i = k then (s.read i).map (fun r => { r with cutOff := true }) else s.read i := by
  unfold cutOffRead
  cases read : s.read k with
  | none => by_cases here : i = k <;> simp [here, read]
  | some r => by_cases here : i = k <;> simp [here, read]

theorem cutOffReads_read (s : State) {i : Nat} (inside : i < 9) :
    (cutOffReads s).read i = (s.read i).map fun r => { r with cutOff := true } := by
  have all (is : List Nat) (distinct : is.Nodup) (u : State) : (is.foldl cutOffRead u).read i =
      if i ∈ is then (u.read i).map (fun r => { r with cutOff := true }) else u.read i := by
    induction is generalizing u with
    | nil => rfl
    | cons k is ih =>
      obtain ⟨fresh, later⟩ := List.nodup_cons.mp distinct
      rw [List.foldl_cons, ih later, cutOffRead_read]
      by_cases here : i = k
      · subst here
        simp [fresh]
      · simp [here]
  rw [cutOffReads_eq, all _ List.nodup_range, if_pos (List.mem_range.mpr inside)]

/-- A cut-off changes the entries of the reads, and nothing else. -/
theorem cutOffReads_keeps (s : State) : (cutOffReads s).onHp (fun b => { b with reads := s.hp.reads }) = s := by
  rw [cutOffReads_eq]
  generalize List.range 9 = is
  have all (u : State) (same : u.onHp (fun b => { b with reads := s.hp.reads }) = s) :
      (is.foldl cutOffRead u).onHp (fun b => { b with reads := s.hp.reads }) = s := by
    induction is generalizing u with
    | nil => exact same
    | cons k is ih =>
      refine ih _ ?_
      unfold cutOffRead
      split
      · exact same
      · exact same
  exact all s rfl

theorem startFunctionReset_enters {s : State} (up : s.hp.device ≠ .resetting) :
    startFunctionReset s = completeReset (enterResetting s) := if_neg up

theorem startHostLinkReset_enters {s : State} (up : s.hp.device ≠ .resetting) :
    startHostLinkReset s = completeReset (enterResetting (cutOffReads s)) := if_neg up

/-- A CONTROL write with FUNCTION_RESET set, in any state but RESETTING (R172). -/
theorem exec_functionReset_enters {s : State} {w : Word32} (up : s.hp.device ≠ .resetting) (asked : w.getLsbD 1 = true) :
    exec (.functionReset w) s = .next (completeReset (enterResetting s)) := by
  have flag : controlFunctionReset w = true := asked
  rw [Control.exec_functionReset, writeControl, if_neg up, if_pos flag, startFunctionReset_enters up]

/-- The DOWNs that an entry into RESETTING sends (R85). -/
def resetDowns (s : State) : List (Nat × LinkMessage) := if s.hp.device = .failed then [] else
  ([0, 1, 2, 3].filter fun l => (s.link l).state ≠ .disabled).map fun l => (l, LinkMessage.down l)

theorem enterResetting_stops (s : State) : (enterResetting s).hp = { s.hp with device := .resetting, run := false } ∧
    Stopped s (enterResetting s) quieted (resetDowns s) := by
  obtain ⟨hp, stopped⟩ := entry_stops (resetLink_op (decide (s.hp.device = .failed))) s fun b =>
    { b with device := .resetting, run := false }
  refine ⟨hp, { stopped with out := stopped.out.trans ?_ }⟩
  congr 1
  by_cases failed : s.hp.device = .failed
  · simp [resetDowns, failed]
  · simp only [resetDowns, failed, decide_false, Bool.false_eq_true, if_false]
    generalize [0, 1, 2, 3] = ls
    induction ls with
    | nil => rfl
    | cons l ls ih =>
      rw [List.map_cons, List.flatten_cons, ih, List.filter_cons]
      by_cases disabled : (s.link l).state = .disabled <;> simp [downMark, disabled]

theorem completeReset_resets {s : State} (resetting : s.hp.device = .resetting) (empty : ∀ i < 9, s.read i = none) :
    completeReset s = completeFunctionReset s := by
  simp [completeReset, (readsEmpty_iff s).mpr empty, resetting]

theorem completeReset_waits {s : State} (outstanding : ∃ i < 9, s.read i ≠ none) : completeReset s = s := by
  obtain ⟨i, inside, busy⟩ := outstanding
  exact if_neg fun empty => busy ((readsEmpty_iff s).mp empty i inside)

theorem enterResetting_read (s : State) (i : Nat) : (enterResetting s).read i = s.read i :=
  State.read_congr _ _ _ (by rw [(enterResetting_stops s).1])

/-- An entry with no read outstanding completes at once. -/
theorem enterResetting_completes {s : State} (empty : ∀ i < 9, s.read i = none) : completeReset (enterResetting s) =
    { State.reset with
      hp := { HpBlock.reset with out := s.hp.out }, lu := { LuBlock.reset with out := s.lu.out ++ resetDowns s },
      pending := s.pending } := by
  obtain ⟨hp, stopped⟩ := enterResetting_stops s
  rw [completeReset_resets (by rw [hp]) fun i inside => by rw [enterResetting_read, empty i inside], completeFunctionReset,
    hp, stopped.out, stopped.pending]

/-- Without a read outstanding a host-link reset cuts off nothing. -/
theorem cutOffReads_empty {s : State} (empty : ∀ i < 9, s.read i = none) : cutOffReads s = s := by
  have all (is : List Nat) (inside : ∀ i ∈ is, i < 9) : is.foldl cutOffRead s = s := by
    induction is with
    | nil => rfl
    | cons k is ih =>
      rw [List.foldl_cons, cutOffRead, empty k (inside k List.mem_cons_self)]
      exact ih fun i among => inside i (List.mem_cons_of_mem _ among)
  exact all _ fun i among => List.mem_range.mp among

/-- CONTROL while a function reset waits: FUNCTION_RESET and the mode. -/
theorem resetting_control {v : State} (device : v.hp.device = .resetting) (run : v.hp.run = false) :
    v.readRegister 0x000 = BitVec.ofNat 32 (2 + 16 * v.hp.mode.code) := by
  cases mode : v.hp.mode <;> simp [State.readRegister, controlWord, bit, device, run, mode, ContainmentMode.code]

/-- What an entry into RESETTING that waits for a read leaves of the part (R174). -/
def Entered (s v : State) : Prop :=
  v.hp.device = .resetting ∧ v.hp.run = false ∧ v.hp.mode = s.hp.mode ∧ v.hp.latch = s.hp.latch ∧ v.hp.out = s.hp.out ∧
    v.readRegister 0x000 = BitVec.ofNat 32 (2 + 16 * s.hp.mode.code) ∧ v.dfu = s.dfu ∧ v.ap = s.ap ∧ v.ec = s.ec ∧
    v.bm = { s.bm with fetchEnds := [] } ∧ v.es.schedulers = s.es.schedulers ∧ v.lu.out = s.lu.out ++ resetDowns s ∧
    (∀ l < 4, v.link l = quieted (s.link l)) ∧ ∀ n < 16, v.cq n = { s.cq n with timer := none }

theorem enterResetting_entered {s u : State} {x : Table (Option HostRead)} (same : u.onHp (fun b => { b with reads := x }) = s) :
    Entered s (enterResetting u) := by
  obtain ⟨hp, stopped⟩ := enterResetting_stops u
  subst same
  exact ⟨by rw [hp], by rw [hp], by rw [hp]; rfl, by rw [hp]; rfl, by rw [hp]; rfl,
    by rw [resetting_control (by rw [hp]) (by rw [hp]), hp]; rfl, stopped.dfu, stopped.ap, stopped.ec, stopped.bm,
    stopped.schedulers, stopped.out, stopped.link, stopped.cq⟩

/-- Settles O8: both ways into RESETTING, with and without a read outstanding, and the host-link reset in RESETTING. -/
theorem functionResetEntry : Obligations.FunctionResetEntry := by
  unfold Obligations.FunctionResetEntry
  refine ⟨fun s resetting => by rw [exec_hostLinkReset, startHostLinkReset, if_pos resetting],
    fun w s up asked => ⟨fun empty => ⟨?_, ?_⟩, fun outstanding => ?_⟩⟩
  · rw [exec_functionReset_enters up asked, enterResetting_completes empty]
    rfl
  · rw [exec_hostLinkReset, startHostLinkReset_enters up, cutOffReads_empty empty, enterResetting_completes empty]
    rfl
  · have waits : ∃ i < 9, (enterResetting s).read i ≠ none := by
      obtain ⟨i, inside, busy⟩ := outstanding
      exact ⟨i, inside, by rw [enterResetting_read]; exact busy⟩
    have cutWaits : ∃ i < 9, (enterResetting (cutOffReads s)).read i ≠ none := by
      obtain ⟨i, inside, busy⟩ := outstanding
      exact ⟨i, inside, by rw [enterResetting_read, cutOffReads_read _ inside]; simpa using busy⟩
    refine ⟨enterResetting s, enterResetting (cutOffReads s), ?_, ?_, fun i inside => ⟨enterResetting_read s i, ?_⟩, ?_⟩
    · rw [exec_functionReset_enters up asked, completeReset_waits waits]
    · rw [exec_hostLinkReset, startHostLinkReset_enters up, completeReset_waits cutWaits]
    · rw [enterResetting_read, cutOffReads_read _ inside]
    · have plain : Entered s (enterResetting s) := enterResetting_entered (x := s.hp.reads) rfl
      have cut : Entered s (enterResetting (cutOffReads s)) := enterResetting_entered (cutOffReads_keeps s)
      intro v among
      obtain here | here := List.mem_pair.mp among
      · rw [here]; exact plain
      · rw [here]; exact cut

end Sys2Proof.Proofs.Containment

/-! FATAL_REPORT by the stored mode (R158 to R161, R163, R85, R132). -/

namespace Sys2Proof.Proofs.FatalReports

open Sys2Proof Sys2Proof.Machine Host Sys2Proof.Proofs.Readings Sys2Proof.Proofs.Descriptors
open Sys2Proof.Proofs.Retirement Sys2Proof.Proofs.HostReads Sys2Proof.Proofs.Containment

/-! ### Notices read and write the HP and the EC alone -/

/-- Two states with the same HP and EC. -/
def sameFlags (s t : State) : Prop := s.hp = t.hp ∧ s.ec = t.ec

theorem signalVector0_congr {s t : State} (same : sameFlags s t) : sameFlags (signalVector0 s) (signalVector0 t) := by
  obtain ⟨hp, ec⟩ := same
  unfold signalVector0
  rw [hp]
  split
  · exact ⟨hp, ec⟩
  · exact ⟨by simp [State.emit, State.onHp, hp], by simpa [State.emit] using ec⟩

theorem writeNotice_congr (n : Notice) (k : Nat) {s t : State} (same : sameFlags s t) :
    sameFlags (writeNotice n k s) (writeNotice n k t) := by
  obtain ⟨hp, ec⟩ := same
  unfold writeNotice
  refine signalVector0_congr ⟨?_, ?_⟩
  · simp [hp, ec]
  · simp [State.onEc, hp, ec]

theorem raiseNotice_congr (n : Notice) {s t : State} (same : sameFlags s t) : sameFlags (raiseNotice n s) (raiseNotice n t) := by
  obtain ⟨hp, ec⟩ := id same
  have room : nrRoom s = nrRoom t := by simp [nrRoom, hp, ec]
  have postponed : sameFlags (postponeNotice n s) (postponeNotice n t) := ⟨by simpa [postponeNotice] using hp, by
    simp [postponeNotice, State.onEc, ec]⟩
  unfold raiseNotice
  rw [hp, ec, room]
  split
  · exact same
  · exact postponed
  all_goals
    split
    · exact writeNotice_congr n 1 same
    · exact postponed

/-! ### FATAL_REPORT -/

theorem exec_fatalReport (cause : FatalCause) (s : State) : exec (.fatalReport cause) s = execFatalReport cause s := by rfl

/-- The state in which a fatal error is contained: its report taken, its cause stored (R158). -/
def fatalTaken (cause : FatalCause) (s : State) : State :=
  (takeReport (.fatal cause) s).onEc fun b => { b with fatalCause := some cause }

theorem fatalTaken_cause (cause : FatalCause) (s : State) : (fatalTaken cause s).ec.fatalCause = some cause := rfl

/-- The links' end markers and, under `downs`, their DOWNs, at an entry into FAILED or SELF_RESETTING (R85). -/
def stopMarks (s : State) (downs : Bool) : List (Nat × LinkMessage) :=
  ([0, 1, 2, 3].map fun l => abortMark l (s.link l) ++ if downs then downMark l (s.link l) else []).flatten

theorem abortMark_eq (l : Nat) (c : LinkContext) : abortMark l c = match c.serializer with
    | some z => if z.lost = false ∧ (c.state = .active ∨ c.state = .draining) then [(l, .endMarker false)] else []
    | none => [] := by
  unfold abortMark mayMark
  cases c.serializer with
  | none => simp
  | some z => simp only [Option.any_some, Bool.and_eq_true, Bool.or_eq_true, decide_eq_true_iff, Bool.not_eq_true',
      and_comm]

theorem downMark_eq (l : Nat) (c : LinkContext) : downMark l c = if c.state ≠ .disabled then [(l, .down l)] else [] := by
  unfold downMark
  split <;> simp [*]

/-- The LINK_FAILED notices of the links taken down, in rising order (R160). -/
def warned (before : State) (s : State) : State :=
  [0, 1, 2, 3].foldl (fun v l => if (before.link l).state ≠ .disabled then raiseNotice (.linkFailed l .containment) v else v) s

theorem forLinks_notices (before s : State) : forLinks (noticeTakenDown before) s = warned before s := by
  have each (l : Nat) (v : State) : noticeTakenDown before l v =
      if (before.link l).state ≠ .disabled then raiseNotice (.linkFailed l .containment) v else v := by
    unfold noticeTakenDown
    split <;> simp [*]
  simp only [forLinks, each]
  rfl

theorem warned_congr (before : State) {s t : State} (same : sameFlags s t) : sameFlags (warned before s) (warned before t) := by
  unfold warned
  induction [0, 1, 2, 3] generalizing s t with
  | nil => exact same
  | cons l ls ih =>
    refine ih ?_
    by_cases up : (before.link l).state ≠ .disabled
    · simpa only [if_pos up] using raiseNotice_congr _ same
    · simpa only [if_neg up] using same

theorem warned_blocks (before s : State) : (warned before s).bm = s.bm ∧ (warned before s).dfu = s.dfu ∧
    (warned before s).lu = s.lu ∧ (warned before s).es = s.es ∧ (warned before s).cu = s.cu ∧
    (warned before s).ap = s.ap := by
  unfold warned
  induction [0, 1, 2, 3] generalizing s with
  | nil => simp
  | cons l ls ih =>
    rw [List.foldl_cons]
    split
    · simpa using ih (raiseNotice (.linkFailed l .containment) s)
    · exact ih s

/-- A state entered, up to the notices or the completion of its entry. -/
def entered (f : Nat → State → State) (device : DeviceState) (s : State) : State :=
  forLinks f (dropReports (stopHoldoffs (s.onHp fun b => { b with device := device })))

theorem entered_stops {f : Nat → State → State} {g : LinkContext → LinkContext} {downs : Bool}
    (op : LinkOp f g fun l c => abortMark l c ++ if downs then downMark l c else []) (device : DeviceState) (s : State) :
    (entered f device s).hp = { s.hp with device := device } ∧ Stopped s (entered f device s) g (stopMarks s downs) :=
  entry_stops op s fun b => { b with device := device }

theorem enterFailed_halt (s : State) : enterFailed false s =
    raiseNotice (.fatalError (entered haltLink .failed s).ec.fatalCause) (entered haltLink .failed s) := by
  unfold enterFailed entered
  simp only [Bool.false_eq_true, if_false]

theorem enterFailed_down (s : State) : enterFailed true s = warned s
    (raiseNotice (.fatalError (entered takeDownLink .failed s).ec.fatalCause) (entered takeDownLink .failed s)) := by
  rw [← forLinks_notices]
  unfold enterFailed entered
  simp only [if_true]

theorem enterSelfResetting_eq (s : State) : enterSelfResetting s = completeReset (entered selfResetLink .selfResetting s) := rfl

/-- What a contained error leaves of the blocks that no notice writes. -/
theorem contained_blocks {s v t : State} {cause : FatalCause} {g : LinkContext → LinkContext}
    {sent : List (Nat × LinkMessage)} (stopped : Stopped (fatalTaken cause s) v g sent)
    (blocks : t.bm = v.bm ∧ t.dfu = v.dfu ∧ t.lu = v.lu ∧ t.es = v.es ∧ t.cu = v.cu ∧ t.ap = v.ap) :
    (t.bm = { s.bm with fetchEnds := [] } ∧ t.dfu = s.dfu ∧ t.ap = s.ap ∧ t.es.schedulers = s.es.schedulers ∧
      t.lu.out = s.lu.out ++ sent ∧ ∀ n < 16, t.cq n = { s.cq n with timer := none }) ∧
    ∀ l < 4, t.link l = g (s.link l) := by
  obtain ⟨bm, dfu, lu, es, cu, ap⟩ := blocks
  refine ⟨⟨bm.trans stopped.bm, dfu.trans stopped.dfu, ap.trans stopped.ap, ?_, ?_, fun n inside => ?_⟩, fun l inside => ?_⟩
  · rw [es]; exact stopped.schedulers
  · rw [lu]; exact stopped.out
  · rw [State.cq_congr v t n (by rw [cu])]; exact stopped.cq n inside
  · rw [State.link_congr v t l (by rw [lu])]; exact stopped.link l inside

/-- Settles O47: by the device state, and in RUNNING by the mode. -/
theorem fatalErrorContained : Obligations.FatalErrorContained := by
  unfold Obligations.FatalErrorContained
  intro s cause
  dsimp only
  have marks (downs : Bool) : ([0, 1, 2, 3].map fun l => (match (s.link l).serializer with
        | some z => if z.lost = false ∧ ((s.link l).state = .active ∨ (s.link l).state = .draining) then
            [(l, LinkMessage.endMarker false)] else []
        | none => []) ++ if downs = true ∧ (s.link l).state ≠ .disabled then [(l, LinkMessage.down l)] else []).flatten =
      stopMarks (fatalTaken cause s) downs := by
    show _ = stopMarks s downs
    unfold stopMarks
    congr 2
    funext l
    rw [abortMark_eq, downMark_eq]
    cases downs <;> simp
  refine ⟨fun device => ?_, fun device => ?_, fun running => ⟨fun mode => ?_, fun mode => ?_, fun mode => ?_⟩⟩
  · rw [exec_fatalReport, execFatalReport]
    rcases device with d | d <;> simp [takeReport, d]
  · rw [exec_fatalReport, execFatalReport]
    rcases device with d | d <;> simp [takeReport, d]
  all_goals
    have contained : exec (.fatalReport cause) s = .next (contain cause (takeReport (.fatal cause) s)) := by
      rw [exec_fatalReport, execFatalReport]
      simp [takeReport, running]
  · have halted : contain cause (takeReport (.fatal cause) s) = enterFailed false (fatalTaken cause s) := by
      simp [contain, fatalTaken, takeReport, mode]
    have op : LinkOp haltLink quieted fun l c => abortMark l c ++ if false then downMark l c else [] := by
      simpa using haltLink_op
    obtain ⟨hp, stopped⟩ := entered_stops (downs := false) op .failed (fatalTaken cause s)
    rw [contained, halted, enterFailed_halt, stopped.ec, fatalTaken_cause]
    generalize entered haltLink .failed (fatalTaken cause s) = v at hp stopped ⊢
    have same : sameFlags v ((fatalTaken cause s).onHp fun b => { b with device := .failed }) := ⟨hp, stopped.ec⟩
    obtain ⟨hpAfter, ecAfter⟩ := raiseNotice_congr (.fatalError (some cause)) same
    obtain ⟨blocks, links⟩ := contained_blocks (t := raiseNotice (.fatalError (some cause)) v) stopped (by simp)
    rw [← marks false] at blocks
    exact ⟨_, rfl, blocks, hpAfter, ecAfter, links⟩
  · have halted : contain cause (takeReport (.fatal cause) s) = enterFailed true (fatalTaken cause s) := by
      simp [contain, fatalTaken, takeReport, mode]
    obtain ⟨hp, stopped⟩ := entered_stops (downs := true) takeDownLink_op .failed (fatalTaken cause s)
    rw [contained, halted, enterFailed_down, stopped.ec, fatalTaken_cause]
    generalize entered takeDownLink .failed (fatalTaken cause s) = v at hp stopped ⊢
    have same : sameFlags v ((fatalTaken cause s).onHp fun b => { b with device := .failed }) := ⟨hp, stopped.ec⟩
    obtain ⟨hpAfter, ecAfter⟩ := warned_congr (fatalTaken cause s) (raiseNotice_congr (.fatalError (some cause)) same)
    obtain ⟨blocks, links⟩ := contained_blocks
      (t := warned (fatalTaken cause s) (raiseNotice (.fatalError (some cause)) v)) stopped (by simp [warned_blocks])
    rw [← marks true] at blocks
    refine ⟨_, rfl, blocks, hpAfter, ecAfter, fun l inside => ⟨fun up => ?_, fun disabled => ?_⟩⟩
    · rw [links l inside]
      exact if_neg up
    · rw [links l inside]
      exact if_pos (Classical.not_not.mp disabled)
  · have halted : contain cause (takeReport (.fatal cause) s) = enterSelfResetting (fatalTaken cause s) := by
      simp [contain, fatalTaken, takeReport, mode]
    obtain ⟨hp, stopped⟩ := entered_stops (downs := true) selfResetLink_op .selfResetting (fatalTaken cause s)
    rw [contained, halted, enterSelfResetting_eq]
    generalize entered selfResetLink .selfResetting (fatalTaken cause s) = w at hp stopped ⊢
    obtain ⟨blocks, links⟩ := contained_blocks (t := w) stopped ⟨rfl, rfl, rfl, rfl, rfl, rfl⟩
    rw [← marks true] at blocks
    have reads (i : Nat) : w.read i = s.read i := State.read_congr _ _ _ (by rw [hp]; rfl)
    refine ⟨w, blocks, hp, stopped.ec, links, fun outstanding => ?_, fun empty => ?_⟩
    · rw [completeReset_waits (by simpa only [reads] using outstanding)]
    · have done : ∀ i < 9, w.read i = none := by simpa only [reads] using empty
      have device : w.hp.device = .selfResetting := by rw [hp]
      rw [exec_selfResetCompletion, if_pos ⟨device, (readsEmpty_iff w).mpr done⟩, completeReset,
        if_pos ((readsEmpty_iff w).mpr done), device]

end Sys2Proof.Proofs.FatalReports

/-! The formats in which admin commands, partner messages and descriptors arrive (R181, R184, sections 11.2, 11.4,
11.8). -/

namespace Sys2Proof.Proofs.Formats

open Sys2Proof Sys2Proof.Machine

/-! ### The fields of an admin command -/

theorem commandBytes_getLsbD {w : Nat} (p : Nat) (x : BitVec w) (i : Nat) :
    (commandBytes p x).getLsbD i = (decide (i < 512) && !decide (i < 8 * p) && x.getLsbD (i - 8 * p)) := by
  rw [commandBytes, BitVec.getLsbD_shiftLeft, BitVec.getLsbD_setWidth]
  by_cases inside : i < 512
  · simp [inside, show i - 8 * p < 512 by omega]
  · simp [inside]

theorem commandField_or (x y : BitVec 512) (o k : Nat) :
    commandField (x ||| y) o k = commandField x o k ||| commandField y o k :=
  BitVec.eq_of_getLsbD_eq fun i inside => by simp [commandField, inside]

/-- A field read where it was placed. -/
theorem commandField_here {w o k : Nat} (x : BitVec w) (inside : 8 * o + 8 * k ≤ 512) :
    commandField (commandBytes o x) o k = x.setWidth (8 * k) :=
  BitVec.eq_of_getLsbD_eq fun i small => by
    rw [commandField, BitVec.getLsbD_extractLsb', commandBytes_getLsbD, BitVec.getLsbD_setWidth]
    simp [small, show 8 * o + i < 512 by omega]

/-- A field read beside the place of another. -/
theorem commandField_beside {w o p k : Nat} (x : BitVec w) (beside : o + k ≤ p ∨ 8 * p + w ≤ 8 * o) :
    commandField (commandBytes p x) o k = 0 :=
  BitVec.eq_of_getLsbD_eq fun i small => by
    rw [commandField, BitVec.getLsbD_extractLsb', commandBytes_getLsbD]
    by_cases low : 8 * o + i < 8 * p
    · simp [low]
    · simp [BitVec.getLsbD_of_ge x (8 * o + i - 8 * p) (by omega)]

/-- A kind that the table does not list is an unknown command (R137). -/
theorem decodeAdminCommand_unknown {r : BitVec 512} (unlisted : commandKinds.contains (commandField r 0 1).toNat = false) :
    decodeAdminCommand r = .unknownCommand (commandField r 2 2) (commandField r 0 1) := by
  unfold decodeAdminCommand
  dsimp only
  split
  case h_18 => rfl
  all_goals
    next listed => simp [listed, commandKinds] at unlisted

/-- An admin command's 64 bytes spell it (section 11.4). -/
theorem decodeAdminCommand_encode {i : Instr} {r : BitVec 512} (formed : i.wellFormed = true)
    (encoded : encodeAdminCommand i = some r) : decodeAdminCommand r = i := by
  unfold encodeAdminCommand at encoded
  split at encoded
  all_goals cases encoded
  case h_18 tag kind =>
    have header : commandField (commandHeader kind.toNat tag) 0 1 = kind := by
      simp (disch := decide) only [commandHeader, commandField_or, commandField_here, commandField_beside]
      simp
    have tagged : commandField (commandHeader kind.toNat tag) 2 2 = tag := by
      simp (disch := decide) only [commandHeader, commandField_or, commandField_here, commandField_beside]
      simp
    rw [decodeAdminCommand_unknown, header, tagged]
    rw [header]
    simpa [Instr.wellFormed] using formed
  all_goals
    simp (disch := decide) only [decodeAdminCommand, commandHeader, commandField_or, commandField_here, commandField_beside]
    simp

/-! ### Partner messages -/

theorem messageField_split (x : BitVec 16) : messageField (x.setWidth 8) ((x >>> 8).setWidth 8) = x := by
  refine BitVec.eq_of_getLsbD_eq fun i inside => ?_
  rw [messageField, BitVec.getLsbD_append]
  by_cases low : i < 8
  · simp [low]
  · simp [low, show 8 + (i - 8) = i by omega, show i - 8 < 8 by omega]

theorem messageField_low (x y : Byte) : (messageField x y).setWidth 8 = x := by
  refine BitVec.eq_of_getLsbD_eq fun i inside => ?_
  rw [messageField, BitVec.getLsbD_setWidth, BitVec.getLsbD_append]
  simp [inside]

theorem messageField_high (x y : Byte) : ((messageField x y) >>> 8).setWidth 8 = y := by
  refine BitVec.eq_of_getLsbD_eq fun i inside => ?_
  rw [messageField, BitVec.getLsbD_setWidth, BitVec.getLsbD_ushiftRight, BitVec.getLsbD_append]
  simp [inside]

/-- Bytes that no message the part can take spells are a malformed one (R184). -/
theorem decodePartnerMessage_malformed {l : Fin 4} {xs : List Byte}
    (unspelt : ∀ i : Instr, i.wellFormed = true → encodePartnerMessage i ≠ some xs) :
    decodePartnerMessage l xs = .malformedMessage l := by
  unfold decodePartnerMessage
  split
  · dsimp only
    split
    · next formed =>
      exact absurd (by simp only [encodePartnerMessage, messageField_low, messageField_high]) (unspelt _ formed)
    · rfl
  · dsimp only
    split
    · next formed =>
      exact absurd (by simp only [encodePartnerMessage, messageField_low, messageField_high]) (unspelt _ formed)
    · rfl
  · exact absurd rfl (unspelt (.down l _) rfl)
  · rfl

/-- Settles O60: commands and messages decode to what they encode, and a descriptor's fields stand at their offsets. -/
theorem commandFormatsRoundTrip : Obligations.CommandFormatsRoundTrip := by
  unfold Obligations.CommandFormatsRoundTrip
  refine ⟨fun i r formed encoded => decodeAdminCommand_encode formed encoded, fun l a b c d xs formed encoded => ?_,
    fun l lane n xs formed encoded => ?_, fun l x xs encoded => ?_, fun l xs unspelt => decodePartnerMessage_malformed unspelt,
    fun x => ?_⟩
  · cases encoded
    simp only [decodePartnerMessage, messageField_split, formed, if_true]
  · cases encoded
    simp only [decodePartnerMessage, messageField_split, formed, if_true]
  · cases encoded
    rfl
  · have field (o k : Nat) : recordField x o k = x.toNat / 256 ^ o % 256 ^ k := by
      rw [recordField, BitVec.extractLsb'_toNat, Nat.shiftRight_eq_div_pow, Nat.pow_mul, Nat.pow_mul]
    simp only [decodeDescriptor, descriptorSegment, field, Nat.reduceMul, Nat.reduceAdd]

end Sys2Proof.Proofs.Formats

/-! The scheduler's choice where no protected memory shows an error (R88, R90 to R94, R97, R99, R104, R105). -/

namespace Sys2Proof.Proofs.Arbitration

open Sys2Proof Sys2Proof.Machine Host Sys2Proof.Proofs.Readings Sys2Proof.Proofs.LinkMessages

/-! ### Eligibility -/

theorem headFilled_iff (threshold : Nat) (f : FrameRecord) : headFilled threshold f = true ↔
    f.state = .ready ∨ (f.state = .filling ∧ 0 < threshold ∧ threshold ≤ f.filled) := by
  simp only [headFilled, Bool.or_eq_true, Bool.and_eq_true, decide_eq_true_eq, and_assoc]

theorem eligible_iff (s : State) (l f : Nat) : eligible s l f = true ↔ s.mayGrant l f := by
  unfold eligible State.mayGrant
  cases queue : (s.flow f).queue with
  | nil => simp [queue]
  | cons r rest =>
    simp only [queue, Bool.and_eq_true, Bool.or_eq_true, decide_eq_true_eq, headFilled_iff, Bool.not_eq_true',
      List.contains_eq_mem, decide_eq_false_iff_not, List.cons.injEq, and_assoc]
    refine and_congr Iff.rfl (and_congr Iff.rfl (and_congr Iff.rfl ⟨?_, ?_⟩))
    · rintro ⟨filled, credit, fresh⟩
      exact ⟨r, rest, rfl, rfl, filled, credit, fresh⟩
    · rintro ⟨_, _, rfl, rfl, filled, credit, fresh⟩
      exact ⟨filled, credit, fresh⟩

theorem anyEligible_iff (s : State) (l : Nat) : anyEligible s l = true ↔ ∃ f < 128, s.mayGrant l f := by
  simp [anyEligible, flowTotal, eligible_iff]

/-- A flow that may be granted has a frame queued for the link. -/
theorem queuesEmpty_of_mayGrant {s : State} {l f : Nat} (inside : f < 128) (may : s.mayGrant l f) :
    queuesEmpty s l = false := by
  obtain ⟨link, -, -, r, rest, queue, -⟩ := may
  refine Bool.eq_false_iff.mpr fun empty => ?_
  have nothing := (queuesEmpty_iff s l).mp empty f inside link
  simp [queue] at nothing

/-- Eligibility reads the flows, the records, the link, its class map and the heads found bad. -/
theorem mayGrant_congr {s t : State} {l : Nat} (flow : ∀ f, t.flow f = s.flow f) (frame : ∀ r, t.frame r = s.frame r)
    (link : t.link l = s.link l) (classes : (t.sched l).classMap = (s.sched l).classMap) (stopped : t.es.stopped = s.es.stopped)
    (f : Nat) : t.mayGrant l f ↔ s.mayGrant l f := by
  unfold State.mayGrant State.available
  rw [flow, link, classes, stopped]
  simp only [frame]

/-! ### The winners -/

theorem expeditedWinner_first {s : State} {l k : Nat} (inside : k < 128)
    (urgent : (s.sched l).mask.getLsbD (s.flow (((s.sched l).expedited + 1 + k) % 128)).cls = true ∧
      s.mayGrant l (((s.sched l).expedited + 1 + k) % 128))
    (first : ∀ j < k, ¬ ((s.sched l).mask.getLsbD (s.flow (((s.sched l).expedited + 1 + j) % 128)).cls = true ∧
      s.mayGrant l (((s.sched l).expedited + 1 + j) % 128))) :
    expeditedWinner s l = some (((s.sched l).expedited + 1 + k) % 128) := by
  rw [expeditedWinner, List.find?_map]
  refine Option.map_eq_some_iff.mpr ⟨k, List.find?_range_eq_some.mpr ⟨?_, List.mem_range.mpr inside, fun j below => ?_⟩, rfl⟩
  · simpa only [Function.comp_apply, Bool.and_eq_true, eligible_iff, flowTotal] using urgent
  · simpa only [Function.comp_apply, Bool.not_eq_true', Bool.not_eq_true, ← Bool.not_eq_true, Bool.and_eq_true, eligible_iff,
      flowTotal] using first j below

theorem expeditedWinner_none {s : State} {l : Nat}
    (calm : ∀ f < 128, ¬ ((s.sched l).mask.getLsbD (s.flow f).cls = true ∧ s.mayGrant l f)) : expeditedWinner s l = none := by
  refine List.find?_eq_none.mpr fun f among => ?_
  obtain ⟨k, -, rfl⟩ := List.mem_map.mp among
  simpa only [Bool.and_eq_true, eligible_iff, flowTotal] using calm _ (Nat.mod_lt _ (by decide))

/-- A slot of a calendar that names a flow with a frame to grant. -/
def slotWins (s : State) (l p f : Nat) : Prop := tableGet calendarUnlisted (s.sched l).active p = some f ∧ s.mayGrant l f

theorem calendarWinner_cons_loses {s : State} {l p : Nat} (ps : List Nat) (loses : ∀ g, ¬ slotWins s l p g) :
    calendarWinner s l (p :: ps) = calendarWinner s l ps := by
  rw [calendarWinner]
  split
  · rfl
  · next f named => exact if_neg fun may => loses f ⟨named, (eligible_iff ..).mp may⟩

theorem calendarWinner_cons_wins {s : State} {l p f : Nat} (ps : List Nat) (wins : slotWins s l p f) :
    calendarWinner s l (p :: ps) = some (p, f) := by
  obtain ⟨named, may⟩ := wins
  rw [calendarWinner, named]
  exact if_pos ((eligible_iff ..).mpr may)

theorem calendarWinner_none {s : State} {l : Nat} {ps : List Nat} (lose : ∀ p ∈ ps, ∀ g, ¬ slotWins s l p g) :
    calendarWinner s l ps = none := by
  induction ps with
  | nil => rfl
  | cons p ps ih =>
    rw [calendarWinner_cons_loses ps (lose p List.mem_cons_self)]
    exact ih fun q among => lose q (List.mem_cons_of_mem _ among)

/-- The first winning slot of a stretch of `n` slots from `start`. -/
theorem calendarWinner_first {s : State} {l f : Nat} (start n k : Nat) (inside : k < n) (wins : slotWins s l (start + k) f)
    (first : ∀ j < k, ∀ g, ¬ slotWins s l (start + j) g) :
    calendarWinner s l (List.range' start n) = some (start + k, f) := by
  induction n generalizing start k with
  | zero => omega
  | succ n ih =>
    rw [List.range'_succ]
    cases k with
    | zero => exact calendarWinner_cons_wins _ wins
    | succ k =>
      rw [calendarWinner_cons_loses _ (by simpa using first 0 (Nat.succ_pos k))]
      have later := ih (start + 1) k (Nat.lt_of_succ_lt_succ inside) (by rwa [Nat.add_right_comm]) fun j below g => by
        rw [Nat.add_right_comm]
        exact first (j + 1) (Nat.succ_lt_succ below) g
      rw [later, Nat.add_right_comm]
      rfl

/-! ### The grant -/

theorem setLink_send (s : State) (k l : Nat) (m : LinkMessage) (x : LinkContext) :
    (s.send k m).setLink l x = (s.setLink l x).send k m := rfl

theorem setLink_setFrame (s : State) (l r : Nat) (f : FrameRecord) (x : LinkContext) :
    (s.setFrame r f).setLink l x = (s.setLink l x).setFrame r f := rfl

/-- A cell that shows no error begins (R106). -/
theorem beginCell_clean {s : State} {l : Nat} {z : Serializer} (clean : s.bm.cellEcc = [])
    (busy : (s.link l).serializer = some z) :
    beginCell l s = setSerializer l (some { z with state := .transmitting, timer := none }) s := by
  rw [beginCell, busy]
  simp only [checkCell_clean _ _ clean]

/-- A grant whose first cell shows no error (R104, R105, R106). -/
theorem grantHead_granted {s : State} {l f r : Nat} {h : Scheduler} (clean : s.eccClean)
    (classes : h.classMap = (s.sched l).classMap) : grantHead l f r (s.setSched l h) = s.granted l f r h := by
  obtain ⟨cells, -, -⟩ := clean
  have lane : laneOf (s.setSched l h) l f = tableGet laneUnlisted (s.sched l).classMap (s.flow f).cls := by
    simp [laneOf, classes]
  unfold grantHead State.granted
  dsimp only
  rw [lane]
  generalize tableGet laneUnlisted (s.sched l).classMap (s.flow f).cls = lane
  rw [beginCell_clean (by simpa using cells) (by simp [setSerializer]; rfl)]
  simp only [setSerializer, State.setAvailable, setLink_send, setLink_setFrame, State.setLink_setLink, State.setSched_reads,
    State.setFrame_reads, State.send_reads, State.link_setLink, if_true]

theorem granted_serializer (s : State) (l f r : Nat) (h : Scheduler) : ((s.granted l f r h).link l).serializer ≠ none := by
  simp [State.granted]

theorem award_granted {s : State} {l f r : Nat} {rest : List Nat} (clean : s.eccClean) (queue : (s.flow f).queue = r :: rest)
    {pointers : Scheduler → Scheduler} (classes : (pointers (s.sched l)).classMap = (s.sched l).classMap) :
    award l f pointers s = (true, s.granted l f r (pointers (s.sched l))) := by
  rw [award, queue]
  exact congrArg (Prod.mk true) (grantHead_granted clean classes)

/-! ### The two tiers -/

theorem arbitrate_expedited {s : State} {l f r : Nat} {rest : List Nat} (clean : s.eccClean)
    (winner : expeditedWinner s l = some f) (queue : (s.flow f).queue = r :: rest) :
    arbitrate l s = (true, s.granted l f r { s.sched l with expedited := f }) := by
  rw [arbitrate, winner]
  exact award_granted clean queue rfl

theorem arbitrate_calendar {s : State} {l : Nat} (winner : expeditedWinner s l = none) :
    arbitrate l s = calendarTier l s := by rw [arbitrate, winner]

section
variable {s : State} {l : Nat}

theorem awardSlot_granted {p f r : Nat} {rest : List Nat} (clean : s.eccClean) (queue : (s.flow f).queue = r :: rest) :
    awardSlot l p f s = (true, s.granted l f r { s.sched l with pointer := (p + 1) % 64 }) :=
  award_granted clean queue rfl

/-- The slots of the first part of a turn (R92). -/
theorem turn_eq (p : Nat) : (if p = 0 then [] else (List.range calendarSlots).drop p) =
    if p = 0 then [] else List.range' p (64 - p) := by
  rw [List.range_eq_range', List.drop_range']
  simp [calendarSlots]

theorem calendarTier_wins {f k : Nat} (turn : 0 < (s.sched l).pointer ∧ (s.sched l).pointer + k < 64)
    (wins : slotWins s l ((s.sched l).pointer + k) f)
    (first : ∀ j < k, ∀ g, ¬ slotWins s l ((s.sched l).pointer + j) g) :
    calendarTier l s = awardSlot l ((s.sched l).pointer + k) f s := by
  rw [calendarTier, turn_eq, if_neg (by omega), calendarWinner_first _ _ k (by omega) wins first]

theorem calendarTier_wraps (lose : ∀ p < 64, 0 < (s.sched l).pointer → (s.sched l).pointer ≤ p → ∀ g, ¬ slotWins s l p g) :
    calendarTier l s = calendarWrap l s := by
  rw [calendarTier, turn_eq, calendarWinner_none]
  intro p among
  split at among
  · cases among
  · next set =>
    have bounds := List.mem_range'_1.mp among
    exact lose p (by omega) (Nat.pos_of_ne_zero set) (by omega)

theorem calendarWrap_wins {f k : Nat} (still : (s.sched l).activation = false)
    (turn : k < if (s.sched l).pointer = 0 then 64 else (s.sched l).pointer) (wins : slotWins s l k f)
    (first : ∀ j < k, ∀ g, ¬ slotWins s l j g) : calendarWrap l s = awardSlot l k f s := by
  have won := calendarWinner_first (s := s) (l := l) (f := f) 0 (if (s.sched l).pointer = 0 then 64 else (s.sched l).pointer) k
    turn (by simpa using wins) (by simpa using first)
  rw [← List.range_eq_range', Nat.zero_add] at won
  rw [calendarWrap, if_neg (by simp [still])]
  simp only [calendarSlots, won]

theorem calendarWrap_loses (still : (s.sched l).activation = false) (small : (s.sched l).pointer < 64)
    (lose : ∀ p < 64, ∀ g, ¬ slotWins s l p g) : calendarWrap l s = (false, s) := by
  rw [calendarWrap, if_neg (by simp [still])]
  dsimp only
  rw [calendarWinner_none]
  intro p among
  have below := List.mem_range.mp among
  refine lose p ?_
  split at below
  · exact below
  · omega

/-- A calendar put in force at the wrap leaves what eligibility reads (R93, R97). -/
theorem slotWins_applied (p f : Nat) : slotWins (applyActivation l s) l p f ↔
    tableGet calendarUnlisted (s.sched l).shadow p = some f ∧ s.mayGrant l f := by
  have applied : ((applyActivation l s).sched l).active = (s.sched l).shadow := by simp [applyActivation]
  rw [slotWins, applied, mayGrant_congr (s := s)]
  · simp [applyActivation]
  · simp [applyActivation]
  · simp [applyActivation]
  · simp [applyActivation]
  · simp [applyActivation]

theorem calendarWrap_applied_wins {f k : Nat} (pending : (s.sched l).activation = true) (turn : k < 64)
    (wins : tableGet calendarUnlisted (s.sched l).shadow k = some f ∧ s.mayGrant l f)
    (first : ∀ j < k, ∀ g, ¬ (tableGet calendarUnlisted (s.sched l).shadow j = some g ∧ s.mayGrant l g)) :
    calendarWrap l s = awardSlot l k f (applyActivation l s) := by
  have won := calendarWinner_first (s := applyActivation l s) (l := l) (f := f) 0 64 k turn
    (by simpa only [slotWins_applied, Nat.zero_add] using wins)
    (by simpa only [slotWins_applied, Nat.zero_add] using first)
  rw [← List.range_eq_range', Nat.zero_add] at won
  rw [calendarWrap, if_pos pending]
  simp only [calendarSlots, won]

theorem calendarWrap_applied_loses (pending : (s.sched l).activation = true)
    (lose : ∀ p < 64, ∀ g, ¬ (tableGet calendarUnlisted (s.sched l).shadow p = some g ∧ s.mayGrant l g)) :
    calendarWrap l s = (false, applyActivation l s) := by
  rw [calendarWrap, if_pos pending]
  dsimp only
  rw [calendarWinner_none]
  intro p among g
  rw [slotWins_applied]
  exact lose p (List.mem_range.mp among) g

/-! ### A link considered -/

variable (running : s.hp.device = .running) (clean : s.eccClean) (active : (s.link l).state = .active)
  (idle : (s.link l).serializer = none)
include running clean active idle

/-- A consideration that holds an arbitration ends with it, where a grant leaves the serializer at work. -/
theorem consider_arbitrated {b : Bool} {t : State} (may : ∃ f < 128, s.mayGrant l f) (held : arbitrate l s = (b, t))
    (busy : b = true → (t.link l).serializer ≠ none) : consider l s = t := by
  obtain ⟨f, inside, grantable⟩ := may
  obtain ⟨-, -, frames⟩ := clean
  rw [consider, considerTimes, if_pos ⟨running, active, idle⟩, if_neg (by simp [queuesEmpty_of_mayGrant inside grantable]),
    readHeads_clean _ frames]
  dsimp only
  rw [if_pos ((anyEligible_iff ..).mpr ⟨f, inside, grantable⟩), held]
  cases b with
  | false => rfl
  | true => exact if_neg (busy rfl)

/-- A link with nothing to grant, and no calendar to put in force with every queue empty, stays as it was. -/
theorem consider_nothing (none_may : ∀ f < 128, ¬ s.mayGrant l f)
    (waits : (s.sched l).activation = false ∨ ∃ f < 128, (s.flow f).link = l ∧ (s.flow f).queue ≠ []) : consider l s = s := by
  obtain ⟨-, -, frames⟩ := clean
  have nothing : ¬ anyEligible s l = true := by
    rw [anyEligible_iff]
    rintro ⟨f, inside, may⟩
    exact none_may f inside may
  rw [consider, considerTimes, if_pos ⟨running, active, idle⟩]
  split
  · next empty =>
    refine if_neg ?_
    rcases waits with still | ⟨f, inside, link, queued⟩
    · simp [still]
    · exact absurd ((queuesEmpty_iff ..).mp empty f inside link) queued
  · rw [readHeads_clean _ frames]
    exact if_neg nothing

end

/-- Settles O40: the expedited tier, then the calendar tier up to the wrap, then the wrap with or without a new
calendar. -/
theorem linkGranted : Obligations.LinkGranted := by
  unfold Obligations.LinkGranted
  intro s l running clean active idle
  dsimp only
  have grants {f r : Nat} {h : Scheduler} (may : ∃ f < 128, s.mayGrant l f) (held : arbitrate l s = (true, s.granted l f r h)) :
      consider l s = s.granted l f r h :=
    consider_arbitrated running clean active idle may held fun _ => granted_serializer s l f r h
  refine ⟨fun k inside r rest queue urgent first => ?_, fun calm small => ⟨fun k inside f below r rest queue wins first turn => ?_,
    fun pending may lose => ⟨fun k inside f r rest queue wins first => ?_, fun none_wins => ?_⟩, fun none_wins still => ?_⟩,
    consider_nothing running clean active idle, fun empty pending => ?_, fun tag before after owes => applyActivation_owed owes⟩
  · exact grants ⟨_, Nat.mod_lt _ (by decide), urgent.2⟩
      (arbitrate_expedited clean (expeditedWinner_first inside urgent first) queue)
  · have tier := arbitrate_calendar (expeditedWinner_none calm)
    by_cases ahead : 0 < (s.sched l).pointer ∧ (s.sched l).pointer + k < 64
    · have slot (j : Nat) (near : j ≤ k) : ((s.sched l).pointer + j) % 64 = (s.sched l).pointer + j :=
        Nat.mod_eq_of_lt (by omega)
      rw [slot k (Nat.le_refl k)] at wins ⊢
      have won := calendarTier_wins ahead wins fun j early => by
        have before := first j early
        rwa [slot j (Nat.le_of_lt early)] at before
      exact grants ⟨f, below, wins.2⟩ (by rw [tier, won, awardSlot_granted clean queue])
    · have still : (s.sched l).activation = false := turn.resolve_right ahead
      have wraps := calendarTier_wraps (s := s) (l := l) fun p inside set beyond => by
        have before := first (p - (s.sched l).pointer) (by omega)
        rwa [Nat.add_sub_cancel' beyond, Nat.mod_eq_of_lt inside] at before
      have won := calendarWrap_wins still (by split <;> omega) wins fun j early => by
        by_cases start : (s.sched l).pointer = 0
        · have before := first j (by omega)
          rwa [start, Nat.zero_add, Nat.mod_eq_of_lt (by omega)] at before
        · have before := first (64 - (s.sched l).pointer + j) (by omega)
          rwa [show ((s.sched l).pointer + (64 - (s.sched l).pointer + j)) % 64 = j by omega] at before
      exact grants ⟨f, below, wins.2⟩ (by rw [tier, wraps, won, awardSlot_granted clean queue])
  · have tier := arbitrate_calendar (expeditedWinner_none calm)
    have applied : (applyActivation l s).eccClean := by simpa [State.eccClean, applyActivation] using clean
    refine consider_arbitrated (b := true) running clean active idle may ?_ fun _ => granted_serializer (applyActivation l s) l f r _
    rw [tier, calendarTier_wraps lose, calendarWrap_applied_wins pending inside wins first,
      awardSlot_granted applied (by simpa [applyActivation] using queue)]
  · have tier := arbitrate_calendar (expeditedWinner_none calm)
    refine consider_arbitrated (b := false) running clean active idle may ?_ (by simp)
    rw [tier, calendarTier_wraps lose, calendarWrap_applied_loses pending none_wins]
  · have tier := arbitrate_calendar (expeditedWinner_none calm)
    by_cases may : ∃ f < 128, s.mayGrant l f
    · refine consider_arbitrated (b := false) running clean active idle may ?_ (by simp)
      rw [tier, calendarTier_wraps fun p inside _ _ => none_wins p inside, calendarWrap_loses still small none_wins]
    · exact consider_nothing running clean active idle (fun f inside grantable => may ⟨f, inside, grantable⟩) (.inl still)
  · rw [consider_empty ((queuesEmpty_iff ..).mpr empty), if_pos ⟨running, active, idle, pending⟩]

end Sys2Proof.Proofs.Arbitration

/-! The ends of a frame on a link: GOOD, and the ABORTs of an underrun and of an abort order (R106, R108 to R111, R113). -/

namespace Sys2Proof.Proofs.FrameEnds

open Sys2Proof Sys2Proof.Machine Host Sys2Proof.Proofs.Readings Sys2Proof.Proofs.Descriptors
open Sys2Proof.Proofs.Retirement Sys2Proof.Proofs.LinkCommands Sys2Proof.Proofs.Ends Sys2Proof.Proofs.Arbitration

/-! ### The link end -/

/-- A record that has left its link and its queue, with the state that follows (R113). -/
def leftLink (r : Nat) (cause : Option FrameCause) (state : FrameState) (s : State) : State :=
  (s.setFrame r { s.frame r with
    linkEnded := true, cause := firstCause (s.frame r).cause cause, state := state }).setFlow (s.frame r).flow
      { s.flow (s.frame r).flow with queue := (s.flow (s.frame r).flow).queue.erase r }

theorem takeLinkEnd_closing {r : Nat} {cause : Option FrameCause} {s : State} (sending : (s.frame r).state = .sending)
    (open_ : (s.frame r).fetchEnded = false) : takeLinkEnd r cause s = leftLink r cause .closing s := by
  simp [takeLinkEnd, sending, open_, leaveQueue_eq, leftLink]

theorem takeLinkEnd_retires {r : Nat} {cause : Option FrameCause} {s : State} (sending : (s.frame r).state = .sending)
    (ended : (s.frame r).fetchEnded = true) : takeLinkEnd r cause s = retire r (leftLink r cause .sending s) := by
  simp [takeLinkEnd, sending, ended, leaveQueue_eq, leftLink]

theorem firstCause_none (kept : Option FrameCause) : firstCause kept .none = kept := by cases kept <;> rfl

/-- What an idle serializer brings is what `frameEndLeads` says (R79, R109, R110). -/
theorem afterLinkEnd_leads (l : Nat) (v : State) : v.frameEndLeads l (afterLinkEnd l v) := by
  refine ⟨fun active => ?_, fun draining owed tag before after owes => ?_⟩
  · rw [afterLinkEnd, active]
  · rw [afterLinkEnd, draining, endDrain_owed owed owes]

/-! ### CELL_SENT -/

theorem exec_cellSent (l : Fin 4) (us : List Upset) (s : State) : exec (.cellSent l us) s = execCellSent l us s := by rfl

theorem cellSent_none {l : Fin 4} {s : State} (idle : (s.link l).serializer = none) : exec (.cellSent l []) s = .next s := by
  rw [exec_cellSent, execCellSent, strike_nil]
  rw [idle]

theorem cellSent_some {l : Fin 4} {s : State} {z : Serializer} (busy : (s.link l).serializer = some z) :
    exec (.cellSent l []) s = .next (if s.hp.device = .running ∧ z.state = .transmitting ∧ z.stopped = false then endCell l z s
      else s) := by
  rw [exec_cellSent, execCellSent, strike_nil]
  rw [busy]

/-- A cell sent and counted (R106). -/
def cellSentState (l : Nat) (z : Serializer) (s : State) : State :=
  (s.send l (.cell (cellPayload s z.nextCell (cellLength (s.frame z.record) z.sent)))).setFrame z.record
    { s.frame z.record with sent := (s.frame z.record).sent + 1 }

/-- The end of a cell's sending where no protected memory shows an error. -/
theorem endCell_clean {l : Nat} {z : Serializer} {s : State} (clean : s.eccClean)
    (sending : (s.frame z.record).state = .sending) : endCell l z s =
      if z.sent + 1 = z.cellCount then
        afterLinkEnd l (goodFrame l (setSerializer l (some { z with sent := z.sent + 1 }) (cellSentState l z s)))
      else nextCell l z (cellSentState l z s) := by
  obtain ⟨-, links, frames⟩ := clean
  have counted : countSent z.record (s.send l (.cell (cellPayload s z.nextCell (cellLength (s.frame z.record) z.sent)))) =
      cellSentState l z s := if_pos sending
  unfold endCell
  dsimp only
  rw [checkRecord_clean _ (by simpa using frames)]
  dsimp only
  by_cases last : z.sent + 1 = z.cellCount
  · simp only [if_pos last, counted]
  · rw [if_neg last, checkLink_clean _ (by simpa using links)]
    simp only [if_neg last, counted]

/-- A next cell that is filled begins at once (R106). -/
theorem nextCell_filled {l : Nat} {z : Serializer} {s : State} (clean : s.bm.cellEcc = []) (filled : z.sent + 1 < z.filled) :
    nextCell l z s = s.setLink l { s.link l with
      serializer := some { z with
        sent := z.sent + 1, nextCell := (s.linkEntry z.nextCell).getD z.nextCell, state := .transmitting, timer := none } } := by
  unfold nextCell
  dsimp only
  rw [if_pos filled, beginCell_clean (by simpa [setSerializer] using clean) (by simp [setSerializer]; rfl)]
  simp [setSerializer]

/-- A next cell that is not filled leaves the serializer STARVED (R108). -/
theorem nextCell_starved {l : Nat} {z : Serializer} {s : State} (unfilled : z.filled ≤ z.sent + 1) :
    nextCell l z s = s.setLink l { s.link l with
      serializer := some { z with
        sent := z.sent + 1, nextCell := (s.linkEntry z.nextCell).getD z.nextCell, state := .starved, timer := some 20 } } := by
  unfold nextCell
  dsimp only
  rw [if_neg (Nat.not_lt.mpr unfilled)]
  rfl

/-- A frame ended GOOD: the marker, the serializer idle, and the link end without a cause (R109). -/
theorem goodFrame_some {l : Nat} {z : Serializer} {s : State} (busy : (s.link l).serializer = some z) : goodFrame l s =
    takeLinkEnd z.record .none ((s.send l (.endMarker true)).setLink l { s.link l with serializer := .none }) := by
  rw [goodFrame, busy]
  rfl

/-- The GOOD end of a frame whose last cell has been sent. -/
theorem goodFrame_sent (l : Nat) (z : Serializer) (s : State) :
    goodFrame l (setSerializer l (some { z with sent := z.sent + 1 }) (cellSentState l z s)) =
      takeLinkEnd z.record .none (((cellSentState l z s).send l (.endMarker true)).setLink l
        { s.link l with serializer := .none }) := by
  rw [goodFrame_some (z := { z with sent := z.sent + 1 }) (by simp [setSerializer])]
  simp [setSerializer, setLink_send, cellSentState]

/-- The record of that frame as it leaves. -/
theorem leftLink_good (l : Nat) (z : Serializer) (s : State) (state : FrameState) :
    leftLink z.record .none state (((cellSentState l z s).send l (.endMarker true)).setLink l
        { s.link l with serializer := .none }) =
      ((((s.send l (.cell (cellPayload s z.nextCell (cellLength (s.frame z.record) z.sent)))).send l
        (.endMarker true)).setLink l { s.link l with serializer := .none }).setFrame z.record { s.frame z.record with
          sent := (s.frame z.record).sent + 1, linkEnded := true, state := state }).setFlow (s.frame z.record).flow
            { s.flow (s.frame z.record).flow with queue := (s.flow (s.frame z.record).flow).queue.erase z.record } := by
  have twice (v : State) (a b : FrameRecord) : (((v.setFrame z.record a).send l (.endMarker true)).setLink l
      { s.link l with serializer := .none }).setFrame z.record b =
        ((v.send l (.endMarker true)).setLink l { s.link l with serializer := .none }).setFrame z.record b :=
    State.setFrame_setFrame ((v.send l (.endMarker true)).setLink l { s.link l with serializer := .none }) z.record a b
  simp [leftLink, cellSentState, firstCause_none, twice]

/-- Settles O41: by the serializer, and after the frame's last cell by whether its fetch has ended. -/
theorem cellSentTaken : Obligations.CellSentTaken := by
  unfold Obligations.CellSentTaken
  intro s l z
  refine ⟨cellSent_none, fun busy => ⟨fun denied => ?_, fun running clean state unstopped sending => ?_⟩⟩
  · rw [cellSent_some busy, if_neg]
    rintro ⟨running, transmitting, unstopped⟩
    simp [running, transmitting, unstopped] at denied
  · have taken : exec (.cellSent l []) s = .next (endCell l z s) := by
      rw [cellSent_some busy, if_pos ⟨running, state, unstopped⟩]
    rw [taken, endCell_clean clean sending]
    obtain ⟨cells, -, -⟩ := id clean
    dsimp only
    refine ⟨fun more => ⟨fun filled => ?_, fun unfilled => ?_⟩, fun last => ?_⟩
    · rw [if_neg more, nextCell_filled (by simpa [cellSentState] using cells) filled, ← state]
      rfl
    · rw [if_neg more, nextCell_starved unfilled]
      rfl
    · rw [if_pos last, goodFrame_sent]
      refine ⟨_, rfl, fun unended => ?_, fun ended => ?_⟩
      · rw [takeLinkEnd_closing (by simpa [cellSentState] using sending) (by simpa [cellSentState] using unended),
          leftLink_good]
        exact afterLinkEnd_leads ..
      · rw [takeLinkEnd_retires (by simpa [cellSentState] using sending) (by simpa [cellSentState] using ended),
          leftLink_good]
        exact afterLinkEnd_leads ..

/-! ### Aborts -/

theorem exec_underrunTimerExpiry (l : Fin 4) (s : State) : exec (.underrunTimerExpiry l) s = execUnderrunTimerExpiry l s := by
  rfl

theorem exec_abortOrder (l : Fin 4) (r : Fin 2048) (s : State) : exec (.abortOrder l r) s = execAbortOrder l r s := by rfl

/-- A link whose frame has been aborted: the marker sent, the unsent cells' credit restored up to the announced credit, the
serializer idle (R110). -/
def abortedLink (l : Nat) (z : Serializer) (s : State) : State :=
  (s.send l (.endMarker false)).setLink l { s.link l with
    serializer := none,
    available := tableSet creditUnlisted (s.link l).available z.lane
      (min (s.announced l z.lane) (s.available l z.lane + (z.cellCount - z.sent))) }

theorem abortFrame_some {l : Nat} {z : Serializer} {s : State} (cause : FrameCause)
    (busy : (s.link l).serializer = some z) :
    abortFrame l cause s = takeLinkEnd z.record (some cause) (abortedLink l z s) := by
  rw [abortFrame, busy]
  simp [setSerializer, State.setAvailable, abortedLink]

/-- A frame aborted where no protected memory shows an error. -/
theorem abortEvent_clean {l : Nat} {z : Serializer} {s : State} (cause : FrameCause) (clean : s.eccClean)
    (busy : (s.link l).serializer = some z) :
    abortEvent l cause s = afterLinkEnd l (takeLinkEnd z.record (some cause) (abortedLink l z s)) := by
  obtain ⟨-, -, frames⟩ := clean
  rw [abortEvent, checkSending_clean _ frames]
  exact congrArg (afterLinkEnd l) (abortFrame_some cause busy)

/-- What follows an abort, by whether the frame's fetch has ended. -/
theorem aborted_leads {l : Nat} {z : Serializer} {s : State} (cause : FrameCause) :
    ((s.frame z.record).state = .sending → (s.frame z.record).fetchEnded = false →
      (leftLink z.record (some cause) .closing (abortedLink l z s)).frameEndLeads l
        (afterLinkEnd l (takeLinkEnd z.record (some cause) (abortedLink l z s)))) ∧
    ((s.frame z.record).state = .sending → (s.frame z.record).fetchEnded = true →
      (retire z.record (leftLink z.record (some cause) .sending (abortedLink l z s))).frameEndLeads l
        (afterLinkEnd l (takeLinkEnd z.record (some cause) (abortedLink l z s)))) := by
  refine ⟨fun sending unended => ?_, fun sending ended => ?_⟩
  · rw [takeLinkEnd_closing (by simpa [abortedLink] using sending) (by simpa [abortedLink] using unended)]
    exact afterLinkEnd_leads ..
  · rw [takeLinkEnd_retires (by simpa [abortedLink] using sending) (by simpa [abortedLink] using ended)]
    exact afterLinkEnd_leads ..

/-- The record of an aborted frame as it leaves, the first cause kept. -/
theorem leftLink_aborted (l : Nat) (z : Serializer) (s : State) (cause : FrameCause) (state : FrameState) :
    leftLink z.record (some cause) state (abortedLink l z s) =
      ((abortedLink l z s).setFrame z.record { s.frame z.record with
        linkEnded := true,
        cause := if (s.frame z.record).cause = none then some cause else (s.frame z.record).cause,
        state := state }).setFlow (s.frame z.record).flow
          { s.flow (s.frame z.record).flow with queue := (s.flow (s.frame z.record).flow).queue.erase z.record } := by
  rw [leftLink, firstCause_eq]
  simp [abortedLink]

theorem underrunTimerExpiry_some {l : Fin 4} {s : State} {z : Serializer} (busy : (s.link l).serializer = some z) :
    exec (.underrunTimerExpiry l) s = .next (
      if s.hp.device = .running ∧ z.state = .starved ∧ z.timer.isSome ∧ z.stopped = false then abortEvent l .underrun s
      else s) := by
  rw [exec_underrunTimerExpiry, execUnderrunTimerExpiry, busy]

section
variable {l : Fin 4} {r : Fin 2048} {s : State} (listed : (l.val, r.val) ∈ s.lu.aborts)
include listed

/-- An order for a link with nothing on it is used up (R111). -/
theorem abortOrder_idle (idle : (s.link l).serializer = none) : exec (.abortOrder l r) s =
    .next (s.onLu fun b => { b with aborts := b.aborts.erase (l.val, r.val) }) := by
  have still : ((s.onLu fun b => { b with aborts := b.aborts.erase (l.val, r.val) }).link l).serializer = none := idle
  rw [exec_abortOrder, execAbortOrder, if_pos (by simpa using listed)]
  simp only [still]

theorem abortOrder_busy {z : Serializer} (busy : (s.link l).serializer = some z) : exec (.abortOrder l r) s = .next (
    if s.hp.device = .running ∧ z.record = r.val ∧ z.stopped = false then
      abortEvent l .fetchAborted (s.onLu fun b => { b with aborts := b.aborts.erase (l.val, r.val) })
    else s.onLu fun b => { b with aborts := b.aborts.erase (l.val, r.val) }) := by
  have still : ((s.onLu fun b => { b with aborts := b.aborts.erase (l.val, r.val) }).link l).serializer = some z := busy
  rw [exec_abortOrder, execAbortOrder, if_pos (by simpa using listed)]
  simp only [still]
  rfl

end

/-- Settles O42: the two ABORTs taken, and where the expiry and the order are not. -/
theorem framesAborted : Obligations.FramesAborted := by
  unfold Obligations.FramesAborted
  intro s l r
  dsimp only
  refine ⟨fun z busy running clean unstopped => ⟨fun starved timed => ?_, fun listed sends => ?_⟩, fun denied => ?_,
    fun unlisted => ?_, fun listed denied => ?_⟩
  · have leads := aborted_leads (l := l) (z := z) (s := s) .underrun
    simp only [leftLink_aborted] at leads
    refine ⟨_, ?_, leads⟩
    rw [underrunTimerExpiry_some busy, if_pos ⟨running, starved, timed, unstopped⟩, abortEvent_clean .underrun clean busy]
  · have leads := aborted_leads (l := l) (z := z)
      (s := s.onLu fun b => { b with aborts := b.aborts.erase (l.val, r.val) }) .fetchAborted
    simp only [leftLink_aborted] at leads
    refine ⟨_, ?_, leads⟩
    rw [abortOrder_busy listed busy, if_pos ⟨running, sends, unstopped⟩,
      abortEvent_clean (s := s.onLu fun b => { b with aborts := b.aborts.erase (l.val, r.val) }) .fetchAborted clean busy]
  · cases busy : (s.link l).serializer with
    | none => rw [exec_underrunTimerExpiry, execUnderrunTimerExpiry, busy]
    | some z =>
      rw [underrunTimerExpiry_some busy, if_neg]
      rintro ⟨running, starved, timed, unstopped⟩
      rcases denied with h | h | ⟨y, same, h⟩
      · exact h running
      · simp [busy] at h
      · obtain rfl : z = y := by simpa [busy] using same
        have untimed : z.timer = none := by simpa [starved, unstopped] using h
        simp [untimed] at timed
  · rw [exec_abortOrder, execAbortOrder, if_neg (by simpa using unlisted)]
  · cases busy : (s.link l).serializer with
    | none => exact abortOrder_idle listed busy
    | some z =>
      rw [abortOrder_busy listed busy, if_neg]
      rintro ⟨running, sends, unstopped⟩
      rcases denied with h | h | ⟨y, same, h⟩
      · exact h running
      · simp [busy] at h
      · obtain rfl : z = y := by simpa [busy] using same
        simp [sends, unstopped] at h

end Sys2Proof.Proofs.FrameEnds

/-! The failures of links, and the end of a drain by the partner (R70, R72, R74, R80, R99, R113, R184). -/

namespace Sys2Proof.Proofs.LinkFailures

open Sys2Proof Sys2Proof.Machine Host Sys2Proof.Proofs.Readings Sys2Proof.Proofs.Descriptors
open Sys2Proof.Proofs.Retirement Sys2Proof.Proofs.LinkCommands Sys2Proof.Proofs.LinkMessages
open Sys2Proof.Proofs.Ends Sys2Proof.Proofs.Arbitration Sys2Proof.Proofs.FrameEnds

/-! ### The frame on a failing link -/

/-- A record lost with its link: its link end taken with LINK_LOST on an idle serializer (R113). -/
def lostRecord (l : Nat) (z : Serializer) (state : FrameState) (s : State) : State :=
  leftLink z.record (some .linkLost) state (setSerializer l none s)

/-- The state after the frame of a failing link has been cut short, where that accesses no bad record (R18, R80). -/
def cutShort (l : Nat) (s v : State) : Prop :=
  ((s.link l).serializer = none ∧ v = s) ∨ ∃ z, (s.link l).serializer = some z ∧
    ((z.stopped = true ∧ v = s.setLink l { s.link l with serializer := some { z with lost := true } }) ∨
      (z.stopped = false ∧ s.eccClean ∧ (s.frame z.record).state = .sending ∧
        (((s.frame z.record).fetchEnded = false ∧ v = lostRecord l z .closing s) ∨
          ((s.frame z.record).fetchEnded = true ∧ v = retire z.record (lostRecord l z .sending s)))))

section
variable {l : Nat} {s v : State} (cut : cutShort l s v)
include cut

theorem checkSending_of_cut : checkSending l s = (true, s) := by
  rcases cut with ⟨idle, -⟩ | ⟨z, busy, ⟨stopped, -⟩ | ⟨-, ⟨-, -, frames⟩, -⟩⟩
  · simp [checkSending, idle]
  · simp [checkSending, busy, stopped]
  · exact checkSending_clean l frames

theorem loseFrame_of_cut : loseFrame l s = v := by
  rcases cut with ⟨idle, here⟩ | ⟨z, busy, ⟨stopped, here⟩ | ⟨going, -, sending, ⟨unended, here⟩ | ⟨ended, here⟩⟩⟩
  · rw [here, loseFrame_idle idle]
  · rw [here, loseFrame_stopped busy stopped]
    rfl
  · rw [here, loseFrame_sending busy going, takeLinkEnd_closing (by simpa [setSerializer] using sending)
      (by simpa [setSerializer] using unended), lostRecord]
  · rw [here, loseFrame_sending busy going, takeLinkEnd_retires (by simpa [setSerializer] using sending)
      (by simpa [setSerializer] using ended), lostRecord]

/-- A frame cut short changes the serializer of its link, and no other field of it, and no scheduler. -/
theorem cut_link : ((v.link l).state = (s.link l).state ∧ (v.link l).cause = (s.link l).cause ∧
    (v.link l).outstanding = (s.link l).outstanding) ∧ v.sched l = s.sched l := by
  have lost (z : Serializer) (state : FrameState) :
      (((lostRecord l z state s).link l).state = (s.link l).state ∧ ((lostRecord l z state s).link l).cause = (s.link l).cause ∧
        ((lostRecord l z state s).link l).outstanding = (s.link l).outstanding) ∧ (lostRecord l z state s).sched l = s.sched l := by
    simp [lostRecord, leftLink, setSerializer]
  rcases cut with ⟨-, here⟩ | ⟨z, -, ⟨-, here⟩ | ⟨-, -, -, ⟨-, here⟩ | ⟨-, here⟩⟩⟩
  · rw [here]
    exact ⟨⟨rfl, rfl, rfl⟩, rfl⟩
  · rw [here]
    simp
  · rw [here]
    exact lost ..
  · rw [here, State.link_congr (lostRecord l z .sending s) _ l (by simp),
      State.sched_congr (lostRecord l z .sending s) _ l (by simp)]
    exact lost ..

/-- A failure whose frame is cut short is carried out. -/
theorem failLinkEvent_of_cut (cause : LinkCause) : failLinkEvent l cause s = failLink l cause s := by
  rw [failLinkEvent, checkSending_of_cut cut]

end

/-! ### The failure -/

/-- A link down with a cause, its credit 0. -/
def downLink (l : Nat) (state : LinkState) (cause : Option LinkCause) (owed : Option LinkCommand) (v : State) : State :=
  v.setLink l { v.link l with announced := [], available := [], state := state, cause := cause, outstanding := owed }

/-- The DOWN of a failure, unless the partner's DOWN is its cause, and its notice (R80). -/
def warnFailed (l : Nat) (cause : LinkCause) (v : State) : State :=
  raiseNotice (.linkFailed l cause) (if cause = .partnerDown then v else v.send l (.down l))

theorem warnFailed_setLink (l k : Nat) (cause : LinkCause) (x : LinkContext) (v : State) :
    (warnFailed l cause v).setLink k x = warnFailed l cause (v.setLink k x) := by
  unfold warnFailed
  rw [State.setLink, ← raiseNotice_onLu]
  split <;> rfl

@[simp] theorem warnFailed_reads (l : Nat) (cause : LinkCause) (v : State) : (∀ k, (warnFailed l cause v).link k = v.link k) ∧
    (∀ k, (warnFailed l cause v).sched k = v.sched k) ∧ (warnFailed l cause v).ap = v.ap := by
  unfold warnFailed
  split <;> simp

@[simp] theorem downLink_reads (l : Nat) (state : LinkState) (cause : Option LinkCause) (owed : Option LinkCommand) (v : State) :
    (∀ k, (downLink l state cause owed v).sched k = v.sched k) ∧ (downLink l state cause owed v).ap = v.ap :=
  ⟨fun _ => rfl, rfl⟩

section
variable {l : Nat} {s v : State} {tag : BitVec 16} {before after : List Outstanding} (cut : cutShort l s v) (cause : LinkCause)
include cut

theorem failLink_eq : failLink l cause s =
    let t := warnFailed l cause (downLink l .failed (some cause) (s.link l).outstanding v)
    if (s.link l).state = .draining then endLinkCommand l .ok (t.setLink l { t.link l with state := .disabled })
    else applyAtDeparture l t := by
  obtain ⟨⟨-, -, owed⟩, -⟩ := cut_link cut
  unfold failLink
  dsimp only
  rw [loseFrame_of_cut cut]
  have down : (clearCredit l .failed v).setLink l { (clearCredit l .failed v).link l with cause := some cause } =
      downLink l .failed (some cause) (s.link l).outstanding v := by
    rw [← owed]
    simp [clearCredit, downLink]
  rw [down]
  rfl

theorem failLink_active (active : (s.link l).state = .active) (still : (s.sched l).activation = false) :
    failLink l cause s = warnFailed l cause (downLink l .failed (some cause) (s.link l).outstanding v) := by
  obtain ⟨-, sched⟩ := cut_link cut
  rw [failLink_eq cut]
  dsimp only
  rw [if_neg (by simp [active]), applyAtDeparture_none (by simpa [sched] using still)]

theorem failLink_activation (active : (s.link l).state = .active) (pending : (s.sched l).activation = true)
    (owes : v.owes { operation := .activateCalendar l, tag := tag } before after) : failLink l cause s =
      adminComplete tag 0x31 .ok 0 (((warnFailed l cause (downLink l .failed (some cause) (s.link l).outstanding v)).setSched l
        { s.sched l with active := (s.sched l).shadow, pointer := 0, activation := false }).onAp fun b =>
          { b with outstanding := before ++ after }) := by
  obtain ⟨-, sched⟩ := cut_link cut
  rw [failLink_eq cut]
  dsimp only
  rw [if_neg (by simp [active]), applyAtDeparture_owed (by simpa [sched] using pending) (owes_congr (s := v) (by simp) owes)]
  simp [sched]

theorem failLink_draining (draining : (s.link l).state = .draining) (owed : (s.link l).outstanding = some .disable)
    (owes : v.owes { operation := .disableLink l, tag := tag } before after) : failLink l cause s =
      adminComplete tag 0x21 .ok 0 ((warnFailed l cause (downLink l .disabled (some cause) none v)).onAp fun b =>
        { b with outstanding := before ++ after }) := by
  rw [failLink_eq cut]
  dsimp only
  rw [if_pos draining, endLinkCommand_disable .ok (by simpa [downLink] using owed) (owes_congr (s := v) (by simp) owes)]
  simp [warnFailed_setLink, downLink]

theorem downInDrain_eq (owed : (s.link l).outstanding = some .disable)
    (owes : v.owes { operation := .disableLink l, tag := tag } before after) : downInDrain l s =
      adminComplete tag 0x21 .ok 0 ((downLink l .disabled (s.link l).cause none v).onAp fun b =>
        { b with outstanding := before ++ after }) := by
  obtain ⟨⟨-, cause, command⟩, -⟩ := cut_link cut
  rw [downInDrain, checkSending_of_cut cut]
  dsimp only
  rw [loseFrame_of_cut cut, endLinkCommand_disable (s := clearCredit l .disabled v) .ok
    (by simpa [clearCredit, command] using owed) owes, ← cause]
  simp [clearCredit, downLink]

end

/-! ### What fails a link -/

theorem protocolError_fails {s : State} {l : Nat} (running : s.hp.device = .running)
    (live : (s.link l).state = .active ∨ (s.link l).state = .draining) : protocolError l s = failLinkEvent l .protocol s :=
  if_pos ⟨running, live⟩

/-- An event that fails a link, with the cause it gives (R70, R72, R74, R184). -/
def fails (s : State) (l : Fin 4) (i : Instr) (cause : LinkCause) : Prop :=
  (((∃ a b c d, i = .ready l a b c d) ∨ i = .malformedMessage l ∨
        ∃ lane n, i = .credit l lane n ∧ (4 ≤ lane.toNat ∨ n.toNat = 0 ∨ 1023 < n.toNat)) ∧
      cause = .protocol ∧ ((s.link l).state = .active ∨ (s.link l).state = .draining)) ∨
    ((∃ lane n, i = .credit l lane n ∧ lane.toNat < 4 ∧ 1 ≤ n.toNat ∧ n.toNat ≤ 1023 ∧
        s.announced l lane.toNat < s.available l lane.toNat + n.toNat) ∧
      cause = .creditOverflow ∧ ((s.link l).state = .active ∨ (s.link l).state = .draining)) ∨
    ((∃ x, i = .down l x) ∧ cause = .partnerDown ∧ (s.link l).state = .active)

theorem exec_fails {s : State} {l : Fin 4} {i : Instr} {cause : LinkCause} (running : s.hp.device = .running)
    (event : fails s l i cause) : exec i s = .next (failLinkEvent l cause s) := by
  rcases event with ⟨message, rfl, live⟩ | ⟨⟨lane, n, rfl, small, low, high, beyond⟩, rfl, live⟩ | ⟨⟨x, rfl⟩, rfl, active⟩
  · rcases message with ⟨a, b, c, d, rfl⟩ | rfl | ⟨lane, n, rfl, bad⟩
    · rw [exec_ready, if_neg, protocolError_fails running live]
      rintro ⟨-, -, awaits⟩
      rcases live with h | h <;> simp [h] at awaits
    · rw [exec_malformedMessage, protocolError_fails running live]
    · rw [exec_credit, if_neg (by omega), protocolError_fails running live]
  · rw [exec_credit, if_pos ⟨small, low, high⟩, if_pos ⟨running, live⟩, takeCredit, if_neg (Nat.not_le.mpr beyond)]
  · rw [exec_down, if_pos running, active]

/-- Settles O37: the event by its cause, the frame by its serializer, and then the link's state. -/
theorem linkFails : Obligations.LinkFails := by
  unfold Obligations.LinkFails
  intro s l i cause running
  dsimp only
  simp only [← firstCause_eq]
  refine ⟨fun event v cut => ?_, fun x here draining owed v cut tag before after owes => ?_⟩
  · have short : cutShort l s v := cut
    rw [exec_fails running event, failLinkEvent_of_cut short]
    refine ⟨fun active still => ?_, fun active pending tag before after owes => ?_, fun draining owed tag before after owes => ?_⟩
    · rw [failLink_active short cause active still]
      rfl
    · rw [failLink_activation short cause active pending owes]
      rfl
    · rw [failLink_draining short cause draining owed owes]
      rfl
  · have short : cutShort l s v := cut
    rw [here, exec_down, if_pos running, draining]
    dsimp only
    rw [downInDrain_eq short owed owes]
    rfl

end Sys2Proof.Proofs.LinkFailures

/-! The checks of the protected memories: sound, corrected or uncorrectable (R17, R18, R87, R155). -/

namespace Sys2Proof.Proofs.Checks

open Sys2Proof Sys2Proof.Machine Host Sys2Proof.Proofs.Readings Sys2Proof.Proofs.Retirement
open Sys2Proof.Proofs.LinkMessages Sys2Proof.Proofs.Arbitration

/-! ### Tables of check bits in canonical form -/

section
variable {α : Type} [DecidableEq α] (u : Nat → α)

/-- The entries of a canonical table are its values that differ from what an unlisted number holds. -/
theorem mem_table_iff {t : Table α} (wf : tableWf u t = true) (k : Nat) (v : α) :
    (k, v) ∈ t ↔ tableGet u t k = v ∧ v ≠ u k := by
  induction t with
  | nil => simp [tableGet, eq_comm]
  | cons e t ih =>
    obtain ⟨j, w⟩ := e
    obtain ⟨listed, above, rest⟩ := (tableWf_cons u).mp wf
    by_cases here : j = k
    · subst here
      have fresh : (j, v) ∉ t := fun among => absurd (above _ among) (Nat.lt_irrefl j)
      simp only [List.mem_cons, Prod.mk.injEq, true_and, fresh, or_false, tableGet, if_true]
      exact ⟨fun same => ⟨same.symm, same ▸ listed⟩, fun same => same.1.symm⟩
    · simp only [List.mem_cons, Prod.mk.injEq, Ne.symm here, false_and, false_or, tableGet, here, if_false]
      exact ih rest

/-- The numbers a canonical table lists rise. -/
theorem table_nodup {t : Table α} (wf : tableWf u t = true) : (t.map Prod.fst).Nodup := by
  induction t with
  | nil => exact .nil
  | cons e t ih =>
    obtain ⟨-, above, rest⟩ := (tableWf_cons u).mp wf
    refine List.nodup_cons.mpr ⟨fun among => ?_, ih rest⟩
    obtain ⟨f, listed, same⟩ := List.mem_map.mp among
    exact absurd (above f listed) (by omega)

/-- A canonical table with some of its entries taken out. -/
theorem tableGet_filter {t : Table α} (wf : tableWf u t = true) (p : Nat × α → Bool) (k : Nat) :
    tableGet u (t.filter p) k = if p (k, tableGet u t k) = true then tableGet u t k else u k := by
  induction t with
  | nil => split <;> rfl
  | cons e t ih =>
    obtain ⟨j, v⟩ := e
    obtain ⟨-, above, rest⟩ := (tableWf_cons u).mp wf
    have unlisted (same : j = k) : tableGet u (t.filter p) k = u k := by
      have none (x : Table α) (absent : ∀ f ∈ x, f.1 ≠ k) : tableGet u x k = u k := by
        induction x with
        | nil => rfl
        | cons f x more =>
          rw [tableGet, if_neg (absent f List.mem_cons_self)]
          exact more fun g among => absent g (List.mem_cons_of_mem _ among)
      refine none _ fun f among => ?_
      have bound := above f (List.mem_filter.mp among).1
      omega
    by_cases here : j = k
    · cases keeps : p (j, v)
      · rw [List.filter_cons_of_neg (by simp [keeps]), unlisted here]
        simp [tableGet, here ▸ keeps, here]
      · rw [List.filter_cons_of_pos keeps]
        simp [tableGet, here ▸ keeps, here]
    · cases keeps : p (j, v)
      · rw [List.filter_cons_of_neg (by simp [keeps]), ih rest]
        simp [tableGet, here]
      · rw [List.filter_cons_of_pos keeps]
        simp [tableGet, here, ih rest]

end

/-! ### A cell's check -/

/-- The entry of a byte of a cell among the first `n`, with one condition. -/
def markedByte (c n : Nat) (x : Ecc) (e : Nat × Ecc) : Bool :=
  (decide (256 * c ≤ e.1) && decide (e.1 < 256 * c + n)) && decide (e.2 = x)

theorem checkCell_eq (c n : Nat) (s : State) : checkCell c n s =
    (!s.bm.cellEcc.any (markedByte c n .uncorrectable),
      (s.onBm fun b => { b with cellEcc := b.cellEcc.filter fun e => !markedByte c n .oneBit e }).onEc fun b =>
        { b with reports := b.reports ++ (s.bm.cellEcc.filter (markedByte c n .oneBit)).map fun _ => .correction .cellData }) :=
  rfl

section
variable {s : State} (wf : tableWf eccUnlisted s.bm.cellEcc = true) (c n : Nat)
include wf

theorem marked_iff {x : Ecc} (bad : x ≠ .valid) (k : Nat) :
    k ∈ (s.bm.cellEcc.filter (markedByte c n x)).map Prod.fst ↔
      k ∈ ((List.range n).filter fun o => decide (tableGet eccUnlisted s.bm.cellEcc (256 * c + o) = x)).map (256 * c + ·) := by
  constructor
  · intro among
    obtain ⟨⟨j, v⟩, listed, rfl⟩ := List.mem_map.mp among
    obtain ⟨entry, marked⟩ := List.mem_filter.mp listed
    simp only [markedByte, Bool.and_eq_true, decide_eq_true_eq] at marked
    obtain ⟨⟨low, high⟩, rfl⟩ := marked
    refine List.mem_map.mpr ⟨j - 256 * c, List.mem_filter.mpr ⟨List.mem_range.mpr (by omega), ?_⟩, Nat.add_sub_cancel' low⟩
    rw [Nat.add_sub_cancel' low]
    exact decide_eq_true ((mem_table_iff eccUnlisted wf ..).mp entry).1
  · intro among
    obtain ⟨o, listed, rfl⟩ := List.mem_map.mp among
    obtain ⟨inside, marked⟩ := List.mem_filter.mp listed
    have below := List.mem_range.mp inside
    refine List.mem_map.mpr ⟨(256 * c + o, x), List.mem_filter.mpr ⟨?_, ?_⟩, rfl⟩
    · exact (mem_table_iff eccUnlisted wf ..).mpr ⟨of_decide_eq_true marked, bad⟩
    · simp only [markedByte, Bool.and_eq_true, decide_eq_true_eq]
      exact ⟨⟨Nat.le_add_right .., by omega⟩, trivial⟩

/-- One report for each byte corrected. -/
theorem corrected_reports (r : EccReport) : ((s.bm.cellEcc.filter (markedByte c n .oneBit)).map fun _ => r) =
    ((List.range n).filter fun o => decide (tableGet eccUnlisted s.bm.cellEcc (256 * c + o) = .oneBit)).map fun _ => r := by
  have keys : ((s.bm.cellEcc.filter (markedByte c n .oneBit)).map Prod.fst).Nodup :=
    (table_nodup eccUnlisted wf).sublist (List.filter_sublist.map _)
  have bytes : (((List.range n).filter fun o =>
      decide (tableGet eccUnlisted s.bm.cellEcc (256 * c + o) = .oneBit)).map (256 * c + ·)).Nodup :=
    (List.nodup_range.filter _).map fun a b same => Nat.add_left_cancel same
  have same := ((List.perm_ext_iff_of_nodup keys bytes).mpr (marked_iff wf c n (by decide))).length_eq
  simp only [List.length_map] at same
  rw [List.map_const', List.map_const', same]

/-- A cell's check passes where no byte to be sent is uncorrectable (R17, R106). -/
theorem checkCell_passes : (checkCell c n s).1 = true ↔
    ∀ o < n, tableGet eccUnlisted s.bm.cellEcc (256 * c + o) ≠ .uncorrectable := by
  rw [checkCell_eq, Bool.not_eq_true', ← Bool.not_eq_true, List.any_eq_true]
  constructor
  · intro sound o below bad
    have differs : Ecc.uncorrectable ≠ .valid := by decide
    refine sound ⟨(256 * c + o, .uncorrectable), (mem_table_iff eccUnlisted wf ..).mpr ⟨bad, differs⟩, ?_⟩
    simp only [markedByte, Bool.and_eq_true, decide_eq_true_eq]
    exact ⟨⟨Nat.le_add_right .., by omega⟩, trivial⟩
  · rintro sound ⟨⟨j, v⟩, entry, marked⟩
    simp only [markedByte, Bool.and_eq_true, decide_eq_true_eq] at marked
    obtain ⟨⟨low, high⟩, rfl⟩ := marked
    refine sound (j - 256 * c) (by omega) ?_
    rw [Nat.add_sub_cancel' low]
    exact ((mem_table_iff eccUnlisted wf ..).mp entry).1

/-- The check bits of the cell memory after a cell's check (R17). -/
theorem checkCell_corrects (a : Nat) :
    tableGet eccUnlisted (s.bm.cellEcc.filter fun e => !markedByte c n .oneBit e) a =
      if 256 * c ≤ a ∧ a < 256 * c + n ∧ tableGet eccUnlisted s.bm.cellEcc a = .oneBit then Ecc.valid
      else tableGet eccUnlisted s.bm.cellEcc a := by
  rw [tableGet_filter eccUnlisted wf]
  by_cases marked : 256 * c ≤ a ∧ a < 256 * c + n ∧ tableGet eccUnlisted s.bm.cellEcc a = .oneBit
  · obtain ⟨low, high, bad⟩ := id marked
    rw [if_pos marked]
    simp [markedByte, low, high, bad, eccUnlisted]
  · rw [if_neg marked, if_pos]
    simp only [markedByte, Bool.not_eq_true', ← Bool.not_eq_true, Bool.and_eq_true, decide_eq_true_eq, and_assoc]
    exact marked

end

/-! ### Disturbances -/

theorem strikeMark_get (marks : Table Ecc) (i n : Nat) (severe : Bool) : tableGet eccUnlisted (strikeMark marks i severe) n =
    if n = i then (if severe = true ∨ tableGet eccUnlisted marks n = .uncorrectable then .uncorrectable else .oneBit)
    else tableGet eccUnlisted marks n := by
  rw [strikeMark, tableGet_set]
  by_cases here : n = i
  · subst here
    cases severe <;> cases tableGet eccUnlisted marks n <;> simp [worseEcc, upsetEcc]
  · simp [here]

theorem strike_onBm (us : List Upset) (s : State) :
    ∃ a b c, strike us s = s.onBm fun m => { m with cellEcc := a, linkEcc := b, frameEcc := c } := by
  have all (u : State) (a : Table Ecc) (b : Table Ecc) (c : Table Ecc)
      (same : u = s.onBm fun m => { m with cellEcc := a, linkEcc := b, frameEcc := c }) :
      ∃ a b c, us.foldl strikeOne u = s.onBm fun m => { m with cellEcc := a, linkEcc := b, frameEcc := c } := by
    induction us generalizing u a b c with
    | nil => exact ⟨a, b, c, same⟩
    | cons x us ih =>
      rw [List.foldl_cons, same]
      cases x <;> exact ih _ _ _ _ rfl
  exact all s s.bm.cellEcc s.bm.linkEcc s.bm.frameEcc rfl

/-! ### Records and link entries -/

theorem checkRecord_valid {r : Nat} {s : State} (sound : tableGet eccUnlisted s.bm.frameEcc r = .valid) :
    checkRecord r s = (true, s) := by simp [checkRecord, sound]

theorem checkLink_valid {c : Nat} {s : State} (sound : tableGet eccUnlisted s.bm.linkEcc c = .valid) :
    checkLink c s = (true, s) := by simp [checkLink, sound]

/-- A record corrected, and the correction reported (R17). -/
def corrected (r : Nat) (s : State) : State :=
  sendReport (.correction .frameTable) (s.onBm fun b => { b with frameEcc := tableErase r b.frameEcc })

theorem corrected_mark (r q : Nat) (s : State) : tableGet eccUnlisted (corrected r s).bm.frameEcc q =
    if q = r then .valid else tableGet eccUnlisted s.bm.frameEcc q := by
  show tableGet eccUnlisted (tableErase r s.bm.frameEcc) q = _
  by_cases here : q = r
  · rw [if_pos here, here, tableGet_erase_same]
    rfl
  · rw [if_neg here, tableGet_erase_ne eccUnlisted _ here]

theorem takeFetchEnd_listed {r : Nat} {ok : Bool} (before after : List (Nat × Bool)) :
    takeFetchEnd r (before ++ (r, ok) :: after) ≠ none := by
  induction before with
  | nil => simp [takeFetchEnd]
  | cons e before ih =>
    by_cases here : e.1 = r
    · simp [takeFetchEnd, here]
    · obtain ⟨x, taken⟩ := Option.ne_none_iff_exists'.mp ih
      simp [takeFetchEnd, here, taken]

/-- A fetch end that meets a one-bit error goes on as on the corrected record. -/
theorem fetchEndEvent_corrected {r : Nat} {s : State} (running : s.hp.device = .running)
    (listed : takeFetchEnd r s.bm.fetchEnds ≠ none) (bad : tableGet eccUnlisted s.bm.frameEcc r = .oneBit) :
    fetchEndEvent r s = fetchEndEvent r (corrected r s) := by
  unfold fetchEndEvent
  rw [show (corrected r s).bm.fetchEnds = s.bm.fetchEnds from rfl]
  split
  · next absent => exact absurd absent listed
  · next ok rest taken =>
    have mark : tableGet eccUnlisted ((corrected r s).onBm fun b => { b with fetchEnds := rest }).bm.frameEcc r = .valid :=
      (corrected_mark r r s).trans (if_pos rfl)
    dsimp only
    rw [if_pos (by simpa using running), if_pos (by simpa [corrected] using running),
      checkRecord_oneBit (s := s.onBm fun b => { b with fetchEnds := rest }) bad, checkRecord_valid mark]
    rfl

/-! ### An arbitration's reads -/

/-- Heads that are sound, or known to be bad, are passed (R17, R18). -/
theorem readHeads_passes {before : List Nat} (rest : List Nat) {s : State}
    (pass : ∀ q ∈ before, tableGet eccUnlisted s.bm.frameEcc q = .valid ∨ q ∈ s.es.stopped) :
    readHeads (before ++ rest) s = readHeads rest s := by
  induction before with
  | nil => rfl
  | cons q before ih =>
    have later := ih fun p among => pass p (List.mem_cons_of_mem _ among)
    rw [List.cons_append, readHeads]
    by_cases known : q ∈ s.es.stopped
    · rw [if_pos (by simpa using known), later]
    · rw [if_neg (by simpa using known), checkRecord_valid ((pass q List.mem_cons_self).resolve_right known)]
      exact later

theorem readHeads_corrects {r : Nat} (rest : List Nat) {s : State} (fresh : r ∉ s.es.stopped)
    (bad : tableGet eccUnlisted s.bm.frameEcc r = .oneBit) : readHeads (r :: rest) s = readHeads rest (corrected r s) := by
  rw [readHeads, if_neg (by simpa using fresh), checkRecord_oneBit bad]
  rfl

theorem readHeads_refuses {r : Nat} (rest : List Nat) {s : State} (fresh : r ∉ s.es.stopped)
    (bad : tableGet eccUnlisted s.bm.frameEcc r = .uncorrectable) : readHeads (r :: rest) s =
      (false, (sendReport (.fatal .frameTableUncorrectable) s).onEs fun b => { b with stopped := r :: b.stopped }) := by
  rw [readHeads, if_neg (by simpa using fresh), checkRecord_uncorrectable bad]

/-- A link with a queued frame and an idle serializer: the heads are read, and an arbitration held where they allow it. -/
theorem consider_reads {s : State} {l : Nat} (running : s.hp.device = .running) (active : (s.link l).state = .active)
    (idle : (s.link l).serializer = none) (queued : ∃ f < 128, (s.flow f).link = l ∧ (s.flow f).queue ≠ []) :
    consider l s = if (readHeads (heads s) s).1 ∧ anyEligible (readHeads (heads s) s).2 l then
      (if (arbitrate l (readHeads (heads s) s).2).1 ∧ ((arbitrate l (readHeads (heads s) s).2).2.link l).serializer = none then
        considerTimes recordTotal l (arbitrate l (readHeads (heads s) s).2).2
      else (arbitrate l (readHeads (heads s) s).2).2) else (readHeads (heads s) s).2 := by
  obtain ⟨f, inside, link, some_queued⟩ := queued
  have waits : ¬ queuesEmpty s l = true := fun empty => some_queued ((queuesEmpty_iff ..).mp empty f inside link)
  rw [consider, considerTimes, if_pos ⟨running, active, idle⟩, if_neg waits]
  obtain ⟨b, t⟩ := readHeads (heads s) s
  cases b with
  | false => simp
  | true =>
    dsimp only
    by_cases may : anyEligible t l = true
    · obtain ⟨d, u⟩ := arbitrate l t
      rw [if_pos may, if_pos ⟨rfl, may⟩]
      cases d <;> simp
    · rw [if_neg may, if_neg fun both => may both.2]

/-- An arbitration that meets a one-bit error goes on as on the corrected record (R17, R87). -/
theorem consider_corrected {s : State} {l r : Nat} {before after : List Nat} (running : s.hp.device = .running)
    (active : (s.link l).state = .active) (idle : (s.link l).serializer = none)
    (queued : ∃ f < 128, (s.flow f).link = l ∧ (s.flow f).queue ≠ []) (order : heads s = before ++ r :: after)
    (sound : ∀ q ∈ before, tableGet eccUnlisted s.bm.frameEcc q = .valid)
    (bad : tableGet eccUnlisted s.bm.frameEcc r = .oneBit) (fresh : r ∉ s.es.stopped) :
    consider l s = consider l (corrected r s) := by
  have stillOrder : heads (corrected r s) = before ++ r :: after := order
  have stillSound : ∀ q ∈ before, tableGet eccUnlisted (corrected r s).bm.frameEcc q = .valid := fun q among => by
    rw [corrected_mark]
    split
    · rfl
    · exact sound q among
  have mended : tableGet eccUnlisted (corrected r s).bm.frameEcc r = .valid := (corrected_mark r r s).trans (if_pos rfl)
  have read : readHeads (heads s) s = readHeads after (corrected r s) := by
    rw [order, readHeads_passes _ fun q among => .inl (sound q among), readHeads_corrects after fresh bad]
  have readMended : readHeads (heads (corrected r s)) (corrected r s) = readHeads after (corrected r s) := by
    rw [stillOrder, readHeads_passes _ fun q among => .inl (stillSound q among)]
    exact readHeads_passes (before := [r]) after fun q among => by
      obtain rfl := List.mem_singleton.mp among
      exact .inl mended
  rw [consider_reads running active idle queued, consider_reads (s := corrected r s) running active idle queued, read,
    readMended]

/-- An arbitration that meets an uncorrectable head makes no grant (R18). -/
theorem consider_refused {s : State} {l r : Nat} {before after : List Nat} (running : s.hp.device = .running)
    (active : (s.link l).state = .active) (idle : (s.link l).serializer = none)
    (queued : ∃ f < 128, (s.flow f).link = l ∧ (s.flow f).queue ≠ []) (order : heads s = before ++ r :: after)
    (pass : ∀ q ∈ before, tableGet eccUnlisted s.bm.frameEcc q = .valid ∨ q ∈ s.es.stopped)
    (fresh : r ∉ s.es.stopped) (bad : tableGet eccUnlisted s.bm.frameEcc r = .uncorrectable) :
    consider l s = (sendReport (.fatal .frameTableUncorrectable) s).onEs fun b => { b with stopped := r :: b.stopped } := by
  rw [consider_reads running active idle queued, order, readHeads_passes _ pass, readHeads_refuses after fresh bad]
  simp

/-- Settles O43: disturbances, the checks of records, of link entries and of cells, and what goes on after a
correction. -/
theorem protectedReadsChecked : Obligations.ProtectedReadsChecked := by
  unfold Obligations.ProtectedReadsChecked
  intro s
  dsimp only
  refine ⟨fun us i x xs r l => ⟨rfl, rfl, rfl, rfl, rfl, strike_onBm us s⟩, fun c o r severe n => ⟨?_, ?_, ?_⟩,
    fun r => ⟨checkRecord_valid, fun bad => ?_, checkRecord_uncorrectable⟩,
    fun c => ⟨checkLink_valid, fun bad => ?_, checkLink_uncorrectable⟩, fun c n wf => ⟨checkCell_passes wf c n, ?_⟩,
    fun r ok before after running listed bad => ?_, fun l before after r running active idle queued order sound bad fresh => ?_,
    fun c o x d => ⟨?_, ?_, fun a other => ?_, fun n other => ?_⟩⟩
  · exact strikeMark_get s.bm.cellEcc (256 * c.val + o.val) n severe
  · exact strikeMark_get s.bm.linkEcc c.val n severe
  · exact strikeMark_get s.bm.frameEcc r.val n severe
  · refine ⟨s.onBm fun b => { b with frameEcc := tableErase r b.frameEcc }, checkRecord_oneBit bad, rfl,
      tableGet_erase_same eccUnlisted .., fun n other => tableGet_erase_ne eccUnlisted _ other⟩
  · refine ⟨s.onBm fun b => { b with linkEcc := tableErase c b.linkEcc }, checkLink_oneBit bad, rfl,
      tableGet_erase_same eccUnlisted .., fun n other => tableGet_erase_ne eccUnlisted _ other⟩
  · refine ⟨s.onBm fun b => { b with cellEcc := b.cellEcc.filter fun e => !markedByte c n .oneBit e }, ?_, rfl,
      checkCell_corrects wf c n⟩
    rw [checkCell_eq, ← corrected_reports wf]
  · rw [exec_fetchEnd, exec_fetchEnd, strike_nil, strike_nil, checkRecord_oneBit bad,
      fetchEndEvent_corrected running (by rw [listed]; exact takeFetchEnd_listed before after) bad]
    rfl
  · rw [checkRecord_oneBit bad]
    exact consider_corrected running active idle queued order sound bad fresh
  · exact tableGet_erase_same eccUnlisted ..
  · exact tableGet_erase_same eccUnlisted ..
  · exact tableGet_erase_ne eccUnlisted _ other
  · exact tableGet_erase_ne eccUnlisted _ other

end Sys2Proof.Proofs.Checks

/-! A cell with an uncorrectable byte ends its frame ABORT with DATA_ERROR (R106, R110, R112, R113). -/

namespace Sys2Proof.Proofs.BadCells

open Sys2Proof Sys2Proof.Machine Host Sys2Proof.Proofs.Readings Sys2Proof.Proofs.Retirement
open Sys2Proof.Proofs.Arbitration Sys2Proof.Proofs.FrameEnds Sys2Proof.Proofs.Checks

/-! ### A cell's check that corrects nothing -/

section
variable {s : State} (wf : tableWf eccUnlisted s.bm.cellEcc = true) {c n : Nat}
include wf

theorem checkCell_uncorrected (unmarked : ∀ o < n, tableGet eccUnlisted s.bm.cellEcc (256 * c + o) ≠ .oneBit) :
    (checkCell c n s).2 = s := by
  have none_marked : ∀ e ∈ s.bm.cellEcc, markedByte c n .oneBit e = false := by
    rintro ⟨j, v⟩ entry
    refine Bool.eq_false_iff.mpr fun marked => ?_
    simp only [markedByte, Bool.and_eq_true, decide_eq_true_eq] at marked
    obtain ⟨⟨low, high⟩, rfl⟩ := marked
    refine unmarked (j - 256 * c) (by omega) ?_
    rw [Nat.add_sub_cancel' low]
    exact ((mem_table_iff eccUnlisted wf ..).mp entry).1
  have kept : (s.bm.cellEcc.filter fun e => !markedByte c n .oneBit e) = s.bm.cellEcc :=
    List.filter_eq_self.mpr fun e among => by simp [none_marked e among]
  have nothing : s.bm.cellEcc.filter (markedByte c n .oneBit) = [] :=
    List.filter_eq_nil_iff.mpr fun e among => by simp [none_marked e among]
  rw [checkCell_eq]
  simp only [State.onBm, State.onEc, kept, nothing, List.map_nil, List.append_nil]

theorem checkCell_bad (bad : ∃ o < n, tableGet eccUnlisted s.bm.cellEcc (256 * c + o) = .uncorrectable)
    (unmarked : ∀ o < n, tableGet eccUnlisted s.bm.cellEcc (256 * c + o) ≠ .oneBit) : checkCell c n s = (false, s) := by
  obtain ⟨o, below, uncorrectable⟩ := bad
  refine Prod.ext (Bool.eq_false_iff.mpr fun passes => ?_) (checkCell_uncorrected wf unmarked)
  exact (checkCell_passes wf c n).mp passes o below uncorrectable

theorem checkCell_sound (sound : ∀ o < n, tableGet eccUnlisted s.bm.cellEcc (256 * c + o) = .valid) :
    checkCell c n s = (true, s) := by
  refine Prod.ext ((checkCell_passes wf c n).mpr fun o below => ?_) (checkCell_uncorrected wf fun o below => ?_)
  · rw [sound o below]; decide
  · rw [sound o below]; decide

/-! ### The cell's sending -/

/-- Where a cell's sending would begin, an uncorrectable byte ends the frame instead (R112). -/
theorem beginCell_bad {l : Nat} {z : Serializer} (busy : (s.link l).serializer = some z)
    (bad : ∃ o < cellLength (s.frame z.record) z.sent,
      tableGet eccUnlisted s.bm.cellEcc (256 * z.nextCell + o) = .uncorrectable)
    (unmarked : ∀ o < cellLength (s.frame z.record) z.sent,
      tableGet eccUnlisted s.bm.cellEcc (256 * z.nextCell + o) ≠ .oneBit) :
    beginCell l s = abortFrame l .dataError (sendReport (.cellData l z.nextCell) s) := by
  rw [beginCell, busy]
  simp only [checkCell_bad wf bad unmarked]

theorem beginCell_sound {l : Nat} {z : Serializer} (busy : (s.link l).serializer = some z)
    (sound : ∀ o < cellLength (s.frame z.record) z.sent,
      tableGet eccUnlisted s.bm.cellEcc (256 * z.nextCell + o) = .valid) :
    beginCell l s = s.setLink l { s.link l with serializer := some { z with state := .transmitting, timer := none } } := by
  rw [beginCell, busy]
  simp only [checkCell_sound wf sound]
  rfl

end

/-- A cell-sent report whose record and link entry are sound goes on to the next cell (R106). -/
theorem endCell_next {l : Nat} {z : Serializer} {s : State} (record : tableGet eccUnlisted s.bm.frameEcc z.record = .valid)
    (entry : tableGet eccUnlisted s.bm.linkEcc z.nextCell = .valid) (sending : (s.frame z.record).state = .sending)
    (more : z.sent + 1 ≠ z.cellCount) : endCell l z s = nextCell l z (cellSentState l z s) := by
  have counted : countSent z.record (s.send l (.cell (cellPayload s z.nextCell (cellLength (s.frame z.record) z.sent)))) =
      cellSentState l z s := if_pos sending
  unfold endCell
  dsimp only
  rw [checkRecord_valid (by simpa using record)]
  dsimp only
  rw [if_neg more, checkLink_valid (by simpa using entry)]
  simp only [if_neg more, counted]

/-- The serializer after a cell that is not the frame's last (R106). -/
def advancedSerializer (z : Serializer) (d : Nat) : Serializer := { z with sent := z.sent + 1, nextCell := d }

/-- Two states with the same blocks are one. -/
theorem state_ext {s t : State} (hp : s.hp = t.hp) (bm : s.bm = t.bm) (dfu : s.dfu = t.dfu) (lu : s.lu = t.lu)
    (es : s.es = t.es) (cu : s.cu = t.cu) (ap : s.ap = t.ap) (ec : s.ec = t.ec) (pending : s.pending = t.pending) : s = t := by
  cases s; cases t; simp_all

/-- A next cell that is filled and bad ends the frame, and what the idle serializer brings follows (R106, R112). -/
theorem nextCell_bad {l : Nat} {z : Serializer} {s : State} {d : Nat} (entry : s.linkEntry z.nextCell = some d)
    (filled : z.sent + 1 < z.filled) (wf : tableWf eccUnlisted s.bm.cellEcc = true)
    (bad : ∃ o < cellLength (s.frame z.record) (z.sent + 1), tableGet eccUnlisted s.bm.cellEcc (256 * d + o) = .uncorrectable)
    (unmarked : ∀ o < cellLength (s.frame z.record) (z.sent + 1), tableGet eccUnlisted s.bm.cellEcc (256 * d + o) ≠ .oneBit) :
    nextCell l z s = afterLinkEnd l (takeLinkEnd z.record (some .dataError) (abortedLink l (advancedSerializer z d)
      (sendReport (.cellData l d) (setSerializer l (some (advancedSerializer z d)) s)))) := by
  have busy : ((setSerializer l (some (advancedSerializer z d)) s).link l).serializer = some (advancedSerializer z d) := by
    simp [setSerializer]
  have begins : beginCell l (setSerializer l (some (advancedSerializer z d)) s) =
      takeLinkEnd z.record (some .dataError) (abortedLink l (advancedSerializer z d)
        (sendReport (.cellData l d) (setSerializer l (some (advancedSerializer z d)) s))) := by
    rw [beginCell_bad (s := setSerializer l (some (advancedSerializer z d)) s) wf busy bad unmarked, abortFrame_some]
    · rfl
    · simp [setSerializer]
  have idle : ((beginCell l (setSerializer l (some (advancedSerializer z d)) s)).link l).serializer = none := by
    rw [begins, State.link_congr _ _ l (congrArg LuBlock.links (takeLinkEnd_frame ..).2.2.1)]
    simp [abortedLink]
  have next : { z with sent := z.sent + 1, nextCell := (s.linkEntry z.nextCell).getD z.nextCell } = advancedSerializer z d := by
    rw [entry]
    rfl
  unfold nextCell
  dsimp only
  rw [if_pos filled, next, if_pos idle, begins]

/-- The record of a frame cut off by a bad cell, as it leaves. -/
theorem leftLink_badCell (l : Nat) (z : Serializer) (d : Nat) (s : State) (state : FrameState) :
    leftLink z.record (some .dataError) state (abortedLink l (advancedSerializer z d)
      (sendReport (.cellData l d) (setSerializer l (some (advancedSerializer z d)) (cellSentState l z s)))) =
    ((((sendReport (.cellData l d) (s.send l (.cell (cellPayload s z.nextCell
      (cellLength (s.frame z.record) z.sent))))).send l (.endMarker false)).setLink l { s.link l with
        serializer := none,
        available := tableSet creditUnlisted (s.link l).available z.lane
          (min (s.announced l z.lane) (s.available l z.lane + (z.cellCount - (z.sent + 1)))) }).setFrame z.record
      { s.frame z.record with
        sent := (s.frame z.record).sent + 1, linkEnded := true,
        cause := (if (s.frame z.record).cause = none then some .dataError else (s.frame z.record).cause),
        state := state }).setFlow (s.frame z.record).flow
      { s.flow (s.frame z.record).flow with queue := (s.flow (s.frame z.record).flow).queue.erase z.record } := by
  rw [leftLink, firstCause_eq]
  apply state_ext
  case ec => rfl
  all_goals simp [abortedLink, advancedSerializer, cellSentState, State.announced, State.available, setSerializer]

/-- Settles O45: the bad cell, the sound cell, and the bad cell that comes after a CELL_SENT. -/
theorem badCellEndsFrame : Obligations.BadCellEndsFrame := by
  unfold Obligations.BadCellEndsFrame
  intro s l z busy wf
  dsimp only
  refine ⟨fun ⟨bad, unmarked⟩ => beginCell_bad wf busy bad unmarked, fun sound => beginCell_sound wf busy sound,
    fun running state unstopped sending record entry more filled d next bad => ?_⟩
  obtain ⟨bad, unmarked⟩ := bad
  have taken : exec (.cellSent l []) s = .next (nextCell l z (cellSentState l z s)) := by
    rw [cellSent_some busy, if_pos ⟨running, state, unstopped⟩, endCell_next record entry sending more]
  have here : (cellSentState l z s).frame z.record = { s.frame z.record with sent := (s.frame z.record).sent + 1 } := by
    simp [cellSentState]
  rw [taken, nextCell_bad (s := cellSentState l z s) next filled wf (by rw [here]; exact bad) (by rw [here]; exact unmarked)]
  have leads := aborted_leads (l := l) (z := advancedSerializer z d) (s := sendReport (.cellData l d)
    (setSerializer l (some (advancedSerializer z d)) (cellSentState l z s))) .dataError
  rw [show (advancedSerializer z d).record = z.record from rfl, leftLink_badCell, leftLink_badCell] at leads
  obtain ⟨closing, retires⟩ := leads
  refine ⟨_, rfl, fun unended => ?_, fun ended => ?_⟩
  · exact closing (by simpa [setSerializer, cellSentState] using sending) (by simpa [setSerializer, cellSentState] using unended)
  · exact retires (by simpa [setSerializer, cellSentState] using sending) (by simpa [setSerializer, cellSentState] using ended)

end Sys2Proof.Proofs.BadCells

/-! FLUSH_FLOW's walk over a flow's queue (R27, R33, R34, R37, R58, R89). -/

namespace Sys2Proof.Proofs.Flushes

open Sys2Proof Sys2Proof.Machine Host Sys2Proof.Proofs.Readings Sys2Proof.Proofs.Descriptors
open Sys2Proof.Proofs.Retirement Sys2Proof.Proofs.RingCommands Sys2Proof.Proofs.FlowCommands
open Sys2Proof.Proofs.LinkCommands Sys2Proof.Proofs.LinkMessages Sys2Proof.Proofs.Arbitration

/-! ### The held descriptors that name the flow -/

/-- The ring and the tag of a held descriptor that names a flow. -/
def namedBy (s : State) (f : Nat) (e : HeldEntry) : Option (Nat × BitVec 32) :=
  match (s.sq e.ring).held with
  | some h => if h.descriptor.flow = f then some (e.ring, h.descriptor.tag) else none
  | none => none

theorem namedBy_free {s : State} (f : Nat) {e : HeldEntry} (empty : (s.sq e.ring).held = none) : namedBy s f e = none := by
  rw [namedBy, empty]

theorem namedBy_held {s : State} (f : Nat) {e : HeldEntry} {h : HeldCopy} (copy : (s.sq e.ring).held = some h) :
    namedBy s f e = if h.descriptor.flow = f then some (e.ring, h.descriptor.tag) else none := by
  rw [namedBy, copy]

/-- A held descriptor completed FLOW_NOT_READY, by its ring and its tag (R33, R58). -/
def completeHeld (v : State) (p : Nat × BitVec 32) : State :=
  completeUnadmitted p.1 p.2 .flowNotReady .none (clearHeld p.1 v)

theorem flushHeld_completes {v : State} {n : Nat} {h : HeldCopy} (copy : (v.sq n).held = some h) :
    flushHeld v n = completeHeld v (n, h.descriptor.tag) := by
  rw [flushHeld, copy]
  rfl

theorem completeHeld_sq (v : State) (p : Nat × BitVec 32) (n : Nat) : (completeHeld v p).sq n =
    if n = p.1 then { v.sq p.1 with held := none, inFlight := (v.sq p.1).inFlight - 1 } else v.sq n := by
  by_cases same : n = p.1 <;> simp [completeHeld, same]

theorem completeHeld_blocks (v : State) (p : Nat × BitVec 32) : (completeHeld v p).bm = v.bm ∧
    (completeHeld v p).lu = v.lu ∧ (completeHeld v p).es = v.es ∧ (completeHeld v p).ap = v.ap ∧
    (completeHeld v p).ec = v.ec ∧ (completeHeld v p).dfu.slots = v.dfu.slots := by
  refine ⟨by simp [completeHeld], by simp [completeHeld], by simp [completeHeld], by simp [completeHeld],
    by simp [completeHeld], ?_⟩
  simp [completeHeld, completeUnadmitted, clearHeld]

/-- A flush's held descriptors, completed one after the other (R33). -/
theorem heldRings_foldl (s : State) (f : Nat) {v : State} (distinct : (s.dfu.held.map HeldEntry.ring).Nodup)
    (copies : ∀ n, (v.sq n).held = (s.sq n).held) :
    (heldRings s f).foldl flushHeld v = (s.dfu.held.filterMap (namedBy s f)).foldl completeHeld v := by
  have each : ∀ e ∈ s.dfu.held, (v.sq e.ring).held = (s.sq e.ring).held := fun e _ => copies e.ring
  clear copies
  unfold heldRings
  generalize s.dfu.held = es at *
  induction es generalizing v with
  | nil => rfl
  | cons e es ih =>
    have ⟨fresh, rest⟩ := List.nodup_cons.mp distinct
    have later : ∀ e' ∈ es, (v.sq e'.ring).held = (s.sq e'.ring).held := fun e' among =>
      each e' (List.mem_cons_of_mem _ among)
    cases copy : (s.sq e.ring).held with
    | none => simpa [copy, namedBy_free f copy] using ih rest later
    | some h =>
      by_cases named : h.descriptor.flow = f
      · have here : (v.sq e.ring).held = some h := (each e List.mem_cons_self).trans copy
        have next := ih (v := completeHeld v (e.ring, h.descriptor.tag)) rest fun e' among => by
          have other : e'.ring ≠ e.ring := fun same => fresh (same ▸ List.mem_map_of_mem among)
          rw [completeHeld_sq, if_neg other]
          exact later e' among
        simpa [copy, namedBy_held f copy, named, flushHeld_completes here] using next
      · simpa [copy, namedBy_held f copy, named] using ih rest later

/-- What the completions of held descriptors leave. -/
theorem completeHeld_foldl (ps : List (Nat × BitVec 32)) (v : State) : (ps.foldl completeHeld v).bm = v.bm ∧
    (ps.foldl completeHeld v).lu = v.lu ∧ (ps.foldl completeHeld v).es = v.es ∧ (ps.foldl completeHeld v).ap = v.ap ∧
    (ps.foldl completeHeld v).ec = v.ec ∧ (ps.foldl completeHeld v).dfu.slots = v.dfu.slots ∧
    ∀ n, ((ps.foldl completeHeld v).sq n).state = (v.sq n).state := by
  induction ps generalizing v with
  | nil => exact ⟨rfl, rfl, rfl, rfl, rfl, rfl, fun _ => rfl⟩
  | cons p ps ih =>
    obtain ⟨bm, lu, es, ap, ec, slots, state⟩ := ih (completeHeld v p)
    obtain ⟨bm', lu', es', ap', ec', slots'⟩ := completeHeld_blocks v p
    refine ⟨bm.trans bm', lu.trans lu', es.trans es', ap.trans ap', ec.trans ec', slots.trans slots', fun n => ?_⟩
    rw [List.foldl_cons, state, completeHeld_sq]
    split
    · next same => rw [same]
    · rfl

/-! ### The completions of the records that retire -/

/-- A written completion reads its ring's completion ring and head, and nothing else of the submission rings. -/
theorem writeCompletion_congr {s t : State} (n : Nat) (tag : BitVec 32) (st : FrameStatus) (sub : Subcode) (cut : Bool)
    (k : Nat) (hp : t.hp = s.hp) (cu : t.cu = s.cu) (ring : (t.sq n).cq = (s.sq n).cq) (head : (t.sq n).head = (s.sq n).head) :
    (writeCompletion n tag st sub cut k t).hp = (writeCompletion n tag st sub cut k s).hp ∧
    (writeCompletion n tag st sub cut k t).cu = (writeCompletion n tag st sub cut k s).cu := by
  have same : t.cq (s.sq n).cq = s.cq (s.sq n).cq := State.cq_congr _ _ _ (by rw [cu])
  unfold writeCompletion coalesce
  simp only [ring, head, same, State.cq_setCq, if_true]
  split
  · simp [State.emit, State.onHp, State.setCq, State.onCu, hp, cu]
  · split <;> simp [State.emit, State.onHp, State.setCq, State.onCu, hp, cu]

/-- The completions FLUSHED of a list of records, in its order. -/
def completed (frame : Nat → FrameRecord) (gone : List Nat) (w : State) : State :=
  gone.foldl (fun v r => writeCompletion (frame r).ring (frame r).tag .flushed .none (frame r).cutThrough (frame r).sent v) w

theorem completed_append (frame : Nat → FrameRecord) (gone : List Nat) (r : Nat) (w : State) :
    completed frame (gone ++ [r]) w = writeCompletion (frame r).ring (frame r).tag .flushed .none (frame r).cutThrough
      (frame r).sent (completed frame gone w) := by
  rw [completed, List.foldl_append]
  rfl

theorem completed_sq (frame : Nat → FrameRecord) (gone : List Nat) (w : State) (n : Nat) :
    (completed frame gone w).sq n = w.sq n := by
  unfold completed
  induction gone generalizing w with
  | nil => rfl
  | cons r rest ih => rw [List.foldl_cons, ih]; simp

/-! ### The walk -/

/-- A retirement writes one link entry, and its check bits fresh (R155). -/
theorem retireRecord_clean (r : Nat) {s : State} (clean : s.eccClean) : (retireRecord r s).eccClean := by
  have released (x : FrameRecord) {u : State} (links : u.bm.linkEcc = []) : (releaseCells x u).bm.linkEcc = [] := by
    unfold releaseCells
    split
    · exact links
    · simp [State.setLinkEntry, State.onBm, links, tableErase]
  obtain ⟨cells, links, frames⟩ := clean
  refine ⟨by simpa [retireRecord, releaseRecord, State.setFrame, State.onBm] using cells, ?_,
    by simpa [retireRecord, releaseRecord, State.setFrame, State.onBm] using frames⟩
  have after := released (s.frame r) (u := writeCompletion (s.frame r).ring (s.frame r).tag (frameStatus (s.frame r).cause) .none
    (s.frame r).cutThrough (s.frame r).sent s) (by simpa using links)
  simpa [retireRecord, releaseRecord, State.setFrame, State.onBm] using after

/-- A record that a walk retires: READY, its fetch ended (R34). -/
def retires (frame : Nat → FrameRecord) (r : Nat) : Bool :=
  decide ((frame r).state = .ready ∧ (frame r).fetchEnded = true)

/-- A record that a walk leaves in its queue (R34). -/
def stays (frame : Nat → FrameRecord) (r : Nat) : Bool := decide ((frame r).state = .sending)

/-- What a walk makes of a record that it takes out of its queue and does not retire (R34). -/
def discardedRecord (x : FrameRecord) : FrameRecord :=
  { x with state := .discarding, cause := if x.cause = none then some .flushed else x.cause }

/-- What a walk makes of a record of the queue (R34). -/
def walkedRecord (frame : Nat → FrameRecord) (r : Nat) : FrameRecord :=
  if stays frame r then frame r else if retires frame r then FrameRecord.reset else discardedRecord (frame r)

section
variable {frame : Nat → FrameRecord} {r : Nat}

theorem walkedRecord_stays (kept : stays frame r = true) : walkedRecord frame r = frame r := if_pos kept

theorem walkedRecord_retires (ended : retires frame r = true) : walkedRecord frame r = FrameRecord.reset := by
  have state : (frame r).state = .ready := (of_decide_eq_true ended).1
  rw [walkedRecord, if_neg (by simp [stays, state]), if_pos ended]

theorem walkedRecord_discards (leaves : stays frame r = false) (unended : retires frame r = false) :
    walkedRecord frame r = discardedRecord (frame r) := by
  rw [walkedRecord, if_neg (by simp [leaves]), if_neg (by simp [unended])]

end

/-- The state `v` of a walk of the flow `f` that began at `w`: past the records `done`, of which it retired `gone`, with
`queue` left. -/
structure Walked (f : Nat) (w : State) (done gone queue : List Nat) (v : State) : Prop where
  flow : v.flow f = { w.flow f with
    flushed := (w.flow f).flushed + gone.length,
    held := (w.flow f).held - (gone.map fun r => (w.frame r).cellCount).sum,
    queue := queue }
  flows : ∀ m, m ≠ f → v.flow m = w.flow m
  passed : ∀ r ∈ done, v.frame r = walkedRecord w.frame r
  frames : ∀ r, r ∉ done → v.frame r = w.frame r
  freeRecords : v.bm.freeRecords = w.bm.freeRecords ++ gone
  freeCount : v.bm.freeCount = w.bm.freeCount + (gone.map fun r => (w.frame r).cellCount).sum
  freeTail : ∀ r, gone.getLast? = some r → v.bm.freeTail = some (w.frame r).lastCell
  cells : v.bm.cells = w.bm.cells
  clean : v.eccClean
  cu : v.cu = (completed w.frame gone w).cu
  hp : v.hp = (completed w.frame gone w).hp
  sq : ∀ n, v.sq n = { w.sq n with
    inFlight := (w.sq n).inFlight - (gone.filter fun r => decide ((w.frame r).ring = n)).length }
  held : v.dfu.held = if gone = [] then w.dfu.held else w.dfu.held.map fun e => { e with ready := true }
  slots : v.dfu.slots = w.dfu.slots
  lu : v.lu = w.lu
  es : v.es = w.es
  ap : v.ap = w.ap
  ec : v.ec = w.ec

theorem Walked.start {f : Nat} {w : State} (clean : w.eccClean) : Walked f w [] [] (w.flow f).queue w where
  flow := by simp
  flows _ _ := rfl
  passed _ among := absurd among List.not_mem_nil
  frames _ _ := rfl
  freeRecords := by simp
  freeCount := by simp
  freeTail := by simp
  cells := rfl
  clean := clean
  cu := rfl
  hp := rfl
  sq _ := by simp
  held := by simp
  slots := rfl
  lu := rfl
  es := rfl
  ap := rfl
  ec := rfl

section
variable {f : Nat} {w v : State} {done gone queue : List Nat} {r : Nat} (walked : Walked f w done gone queue v)
  (fresh : r ∉ done)
include walked fresh

/-- The records passed, with the one the walk passes now. -/
theorem Walked.passed_append {t : State} (here : t.frame r = walkedRecord w.frame r)
    (others : ∀ q, q ≠ r → t.frame q = v.frame q) :
    (∀ q ∈ done ++ [r], t.frame q = walkedRecord w.frame q) ∧ ∀ q, q ∉ done ++ [r] → t.frame q = w.frame q := by
  refine ⟨fun q among => ?_, fun q beyond => ?_⟩
  · rcases List.mem_append.mp among with earlier | now
    · rw [others q fun same => fresh (same ▸ earlier)]
      exact walked.passed q earlier
    · rw [List.mem_singleton.mp now, here]
  · simp only [List.mem_append, List.mem_singleton, not_or] at beyond
    rw [others q beyond.2]
    exact walked.frames q beyond.1

/-- The SENDING head stays where it is (R34). -/
theorem Walked.stay (kept : stays w.frame r = true) : Walked f w (done ++ [r]) gone queue v :=
  have ⟨passed, frames⟩ := walked.passed_append fresh (t := v)
    (by rw [walked.frames r fresh, walkedRecord_stays kept]) fun _ _ => rfl
  { walked with passed := passed, frames := frames }

/-- A record whose fetch goes on leaves the queue for DISCARDING (R34). -/
theorem Walked.discard (flow : (w.frame r).flow = f) (leaves : stays w.frame r = false) (unended : retires w.frame r = false) :
    Walked f w (done ++ [r]) gone (queue.erase r) (leaveQueue r (v.setFrame r (discardedRecord (w.frame r)))) := by
  have ⟨passed, frames⟩ := walked.passed_append fresh
    (t := leaveQueue r (v.setFrame r (discardedRecord (w.frame r))))
    (by simp [walkedRecord_discards leaves unended]) fun q other => by simp [other]
  have named : (discardedRecord (w.frame r)).flow = f := flow
  exact { walked with
    passed := passed, frames := frames
    flow := by simp [named, walked.flow]
    flows := fun m other => by simpa [named, other] using walked.flows m other }

/-- A READY record whose fetch has ended leaves the queue and retires FLUSHED (R34, R115). -/
theorem Walked.retire (flow : (w.frame r).flow = f) (ended : retires w.frame r = true) :
    Walked f w (done ++ [r]) (gone ++ [r]) (queue.erase r)
      (retireRecord r (leaveQueue r (v.setFrame r { w.frame r with cause := some .flushed }))) := by
  have ⟨passed, frames⟩ := walked.passed_append fresh
    (t := retireRecord r (leaveQueue r (v.setFrame r { w.frame r with cause := some .flushed })))
    (by simp [walkedRecord_retires ended]) fun q other => by simp [other]
  obtain ⟨cu, hp, held, slots⟩ := retireRecord_blocks r (leaveQueue r (v.setFrame r { w.frame r with cause := some .flushed }))
  have ring : (v.sq (w.frame r).ring).cq = ((completed w.frame gone w).sq (w.frame r).ring).cq ∧
      (v.sq (w.frame r).ring).head = ((completed w.frame gone w).sq (w.frame r).ring).head := by
    simp [walked.sq, completed_sq]
  have ⟨sameHp, sameCu⟩ := writeCompletion_congr (s := completed w.frame gone w)
    (t := leaveQueue r (v.setFrame r { w.frame r with cause := some .flushed })) (w.frame r).ring (w.frame r).tag .flushed .none
    (w.frame r).cutThrough (w.frame r).sent walked.hp walked.cu ring.1 ring.2
  exact {
    passed := passed, frames := frames
    flow := by simp [flow, walked.flow, retiredFlow, frameStatus, Nat.add_assoc, Nat.sub_sub]
    flows := fun m other => by simpa [flow, other] using walked.flows m other
    freeRecords := by simp [walked.freeRecords]
    freeCount := by simp [walked.freeCount, Nat.add_assoc]
    freeTail := by simp
    cells := by simpa using walked.cells
    clean := retireRecord_clean r (s := leaveQueue r _) walked.clean
    cu := by rw [cu, completed_append, ← sameCu]; simp [frameStatus]
    hp := by rw [hp, completed_append, ← sameHp]; simp [frameStatus]
    sq := fun n => by
      by_cases same : (w.frame r).ring = n
      · simp [same, walked.sq, Nat.sub_sub]
      · simp [same, Ne.symm same, walked.sq]
    held := by
      rw [held]
      have before : (leaveQueue r (v.setFrame r { w.frame r with cause := some .flushed })).dfu.held = v.dfu.held := rfl
      rw [before, walked.held]
      split <;> simp
    slots := slots.trans walked.slots
    lu := by simpa using walked.lu
    es := by simpa using walked.es
    ap := by simpa using walked.ap
    ec := by simpa using walked.ec }

end

/-- A record that FLUSH_FLOW's walk may meet: of the flow, FILLING, READY or SENDING; and where it is READY with its fetch
ended, without a cause and of a ring that is not DELETING. -/
structure Walkable (f : Nat) (w : State) (r : Nat) : Prop where
  flow : (w.frame r).flow = f
  state : (w.frame r).state = .filling ∨ (w.frame r).state = .ready ∨ (w.frame r).state = .sending
  cause : retires w.frame r = true → (w.frame r).cause = none
  ring : retires w.frame r = true → (w.sq (w.frame r).ring).state ≠ .deleting

section
variable {f : Nat} {w v : State} {done gone queue : List Nat} {r : Nat} (walked : Walked f w done gone queue v)
  (fresh : r ∉ done) (walkable : Walkable f w r) (a : Option Nat)
include walked fresh

theorem flushRecord_stays (kept : stays w.frame r = true) : flushRecord f (a, v) r = (a, v) := by
  have sending : (w.frame r).state = .sending := of_decide_eq_true kept
  simp only [flushRecord, walked.frames r fresh, sending]

include walkable

theorem flushRecord_discards (leaves : stays w.frame r = false) (unended : retires w.frame r = false) :
    flushRecord f (a, v) r = (a, leaveQueue r (v.setFrame r (discardedRecord (w.frame r)))) := by
  have moving : (w.frame r).state ≠ .sending := of_decide_eq_false leaves
  have open_ : ¬ ((w.frame r).state = .ready ∧ (w.frame r).fetchEnded = true) := of_decide_eq_false unended
  rcases walkable.state with state | state | state
  · simp only [flushRecord, walked.frames r fresh, state, firstCause_eq]
    rfl
  · simp only [flushRecord, walked.frames r fresh, state, firstCause_eq]
    rw [if_neg fun ended => open_ ⟨state, ended⟩]
    rfl
  · exact absurd state moving

theorem flushRecord_retires (ended : retires w.frame r = true) : ∃ b, (b = a ∨ b = some (w.frame r).ring) ∧
    flushRecord f (a, v) r =
      (b, retireRecord r (leaveQueue r (v.setFrame r { w.frame r with cause := some .flushed }))) := by
  obtain ⟨state, fetched⟩ : (w.frame r).state = .ready ∧ (w.frame r).fetchEnded = true := of_decide_eq_true ended
  simp only [flushRecord, walked.frames r fresh, state, if_pos fetched, walkable.cause ended, firstCause_eq, if_true]
  generalize leads : retireRecord r _ = t
  have kept : (t.sq (w.frame r).ring).state ≠ .deleting := by
    rw [← leads]
    simpa [walked.sq] using walkable.ring ended
  split
  · exact ⟨_, .inr rfl, rfl⟩
  · rw [endDeletion_denied fun denied => kept denied.1]
    exact ⟨_, .inl rfl, rfl⟩

end

/-- The whole walk, from a state of it on. -/
theorem Walked.whole {f : Nat} {w v : State} {done rest : List Nat} (a : Option Nat)
    (walked : Walked f w done (done.filter (retires w.frame)) (done.filter (stays w.frame) ++ rest) v)
    (distinct : (done ++ rest).Nodup) (walkable : ∀ r ∈ rest, Walkable f w r) :
    Walked f w (done ++ rest) ((done ++ rest).filter (retires w.frame)) ((done ++ rest).filter (stays w.frame))
      (rest.foldl (flushRecord f) (a, v)).2 ∧
    ∀ n, (rest.foldl (flushRecord f) (a, v)).1 = some n → a = some n ∨ (w.sq n).state ≠ .deleting := by
  induction rest generalizing done a v with
  | nil => exact ⟨by simpa using walked, fun n => .inl⟩
  | cons r rest ih =>
    have fresh : r ∉ done := fun earlier => (List.nodup_append.mp distinct).2.2 r earlier r List.mem_cons_self rfl
    have here := walkable r List.mem_cons_self
    have later : ∀ q ∈ rest, Walkable f w q := fun q among => walkable q (List.mem_cons_of_mem _ among)
    have split_ : done ++ r :: rest = (done ++ [r]) ++ rest := by simp
    have erased : (done.filter (stays w.frame) ++ r :: rest).erase r = done.filter (stays w.frame) ++ rest := by
      rw [List.erase_append_right _ fun earlier => fresh (List.mem_of_mem_filter earlier), List.erase_cons_head]
    rw [split_] at distinct ⊢
    rw [List.foldl_cons]
    cases kept : stays w.frame r with
    | true =>
      have ends : retires w.frame r = false := by
        have sending : (w.frame r).state = .sending := of_decide_eq_true kept
        simp [retires, sending]
      rw [flushRecord_stays walked fresh a kept]
      exact ih a (by simpa [kept, ends] using walked.stay fresh kept) distinct later
    | false =>
      cases ended : retires w.frame r with
      | false =>
        rw [flushRecord_discards walked fresh here a kept ended]
        exact ih a (by simpa [kept, ended, erased] using walked.discard fresh here.flow kept ended) distinct later
      | true =>
        obtain ⟨b, named, leads⟩ := flushRecord_retires walked fresh here a ended
        rw [leads]
        have ⟨whole, ring⟩ := ih (v := retireRecord r (leaveQueue r (v.setFrame r { w.frame r with cause := some .flushed }))) b
          (by simpa [kept, ended, erased] using walked.retire fresh here.flow ended) distinct later
        refine ⟨whole, fun n some_ring => ?_⟩
        rcases ring n some_ring with rfl | alive
        · rcases named with same | same
          · exact .inl same.symm
          · rw [Option.some.inj same]
            exact .inr (here.ring ended)
        · exact .inr alive

/-! ### What a consideration leaves the submission rings -/

/-- A tier's answer leaves the DFU, and a grant the serializer at work. -/
def tierKeeps (l : Nat) (s : State) (a : Bool × State) : Prop :=
  a.2.dfu = s.dfu ∧ (a.1 = true → (a.2.link l).serializer ≠ none)

theorem award_keeps {l f : Nat} {s : State} {pointers : Scheduler → Scheduler} (clean : s.eccClean)
    (classes : (pointers (s.sched l)).classMap = (s.sched l).classMap) : tierKeeps l s (award l f pointers s) := by
  cases queue : (s.flow f).queue with
  | nil =>
    rw [award, queue]
    exact ⟨rfl, by simp⟩
  | cons r rest =>
    rw [award_granted clean queue classes]
    exact ⟨rfl, fun _ => granted_serializer s l f r (pointers (s.sched l))⟩

theorem awardSlot_keeps {l f p : Nat} {s : State} (clean : s.eccClean) : tierKeeps l s (awardSlot l p f s) :=
  award_keeps clean rfl

theorem calendarTier_keeps {l : Nat} {s : State} (clean : s.eccClean) : tierKeeps l s (calendarTier l s) := by
  have applied : (applyActivation l s).eccClean := by simpa [State.eccClean, applyActivation] using clean
  have same : (applyActivation l s).dfu = s.dfu := by simp [applyActivation]
  unfold calendarTier
  dsimp only
  split
  · exact awardSlot_keeps clean
  · unfold calendarWrap
    split
    · dsimp only
      split
      · obtain ⟨kept, busy⟩ := awardSlot_keeps (l := l) applied
        exact ⟨kept.trans same, busy⟩
      · exact ⟨same, by simp⟩
    · dsimp only
      split
      · exact awardSlot_keeps clean
      · exact ⟨rfl, by simp⟩

theorem consider_dfu {s : State} (l : Nat) (clean : s.eccClean) : (consider l s).dfu = s.dfu := by
  rw [consider, considerTimes]
  split
  · split
    · split
      · simp [applyActivation]
      · rfl
    · rw [readHeads_clean _ clean.2.2]
      dsimp only
      split
      · obtain ⟨kept, busy⟩ : tierKeeps l s (arbitrate l s) := by
          unfold arbitrate
          split
          · exact award_keeps clean rfl
          · exact calendarTier_keeps clean
        generalize arbitrate l s = a at *
        obtain ⟨_ | _, t⟩ := a
        · exact kept
        · dsimp only at *
          rw [if_neg (busy rfl)]
          exact kept
      · rfl
  · rfl

/-! ### FLUSH_FLOW -/

theorem exec_flushFlow (tag flow : BitVec 16) (s : State) : exec (.flushFlow tag flow) s =
    .next (takeCommand (flushFlow tag flow.toNat) s) := by rfl

/-- A FLUSH_FLOW taken, where no protected memory shows an error. -/
theorem flushFlow_begins (tag : BitVec 16) {f : Nat} {s : State} (inside : f ≤ 127)
    (state : (s.flow f).state = .enabled ∨ (s.flow f).state = .disabled) (clean : s.eccClean) :
    flushFlow tag f s = beginFlush tag f s := by
  rw [flushFlow, if_neg (Nat.not_lt.mpr inside), checkRecords_clean _ clean.2.2]
  rcases state with state | state <;> simp only [state]

/-- The flow's context and the outstanding commands as the taking of a FLUSH_FLOW leaves them: the flush ended, where the
flow holds no cells, or its command outstanding (R33, R37). -/
def flushTaken (tag : BitVec 16) (f : Nat) (t : State) : State :=
  if (t.flow f).held = 0 then
    adminComplete tag 0x13 .ok ((t.flow f).flushed % 65536) (t.setFlow f { t.flow f with state := .disabled })
  else appendOutstanding (.flushFlow f) tag t

section
variable (tag : BitVec 16) {f : Nat} {t : State}

theorem flushTaken_ends (empty : (t.flow f).held = 0) : flushTaken tag f t = adminComplete tag 0x13 .ok
    ((t.flow f).flushed % 65536) (t.setFlow f { t.flow f with state := .disabled }) := if_pos empty

theorem flushTaken_waits (holds : (t.flow f).held ≠ 0) : flushTaken tag f t = appendOutstanding (.flushFlow f) tag t :=
  if_neg holds

end

theorem flushTaken_sq (tag : BitVec 16) (f : Nat) (t : State) (n : Nat) : (flushTaken tag f t).sq n = t.sq n := by
  unfold flushTaken
  split <;> simp [appendOutstanding]

section
variable (tag : BitVec 16) {f : Nat} {u w : State}
  (held : (heldRings (u.setFlow f { u.flow f with state := .flushing, flushed := 0 }) f).foldl flushHeld
    (u.setFlow f { u.flow f with state := .flushing, flushed := 0 }) = w)
include held

/-- What follows the walk of a FLUSH_FLOW that owes no deletion's end. -/
theorem beginFlush_taken {v : State} {a : Option Nat}
    (walk : (w.flow f).queue.foldl (flushRecord f) (none, w) = (a, v))
    (alive : ∀ n, a = some n → (v.sq n).state ≠ .deleting) (clean : v.eccClean) : beginFlush tag f u = flushTaken tag f
      (if (v.flow f).queue.head? = (u.flow f).queue.head? then v else consider (v.flow f).link v) := by
  unfold beginFlush
  dsimp only
  rw [held, walk]
  cases a with
  | none => rfl
  | some n =>
    refine endDeletion_denied (s := flushTaken tag f (if (v.flow f).queue.head? = (u.flow f).queue.head? then v
      else consider (v.flow f).link v)) fun denied => alive n rfl ?_
    have same : (flushTaken tag f (if (v.flow f).queue.head? = (u.flow f).queue.head? then v
        else consider (v.flow f).link v)).sq n = v.sq n := by
      rw [flushTaken_sq]
      split
      · rfl
      · exact State.sq_congr _ _ _ (by rw [consider_dfu _ clean])
    rw [← same]
    exact denied.1

/-- The walk of a FLUSH_FLOW over any queue, and what follows it. -/
theorem beginFlush_walks (queue : (w.flow f).queue = (u.flow f).queue) (clean : w.eccClean)
    (distinct : (u.flow f).queue.Nodup) (walkable : ∀ r ∈ (u.flow f).queue, Walkable f w r) :
    ∃ v, Walked f w (u.flow f).queue ((u.flow f).queue.filter (retires w.frame)) ((u.flow f).queue.filter (stays w.frame)) v ∧
      beginFlush tag f u = flushTaken tag f
        (if (v.flow f).queue.head? = (u.flow f).queue.head? then v else consider (v.flow f).link v) := by
  have start := Walked.start (f := f) clean
  rw [queue] at start
  obtain ⟨walked, ring⟩ := start.whole (done := []) none (by simpa using distinct) walkable
  refine ⟨_, walked, beginFlush_taken tag held (by rw [queue]) (fun n named => ?_) walked.clean⟩
  rw [walked.sq]
  exact (ring n named).resolve_left (by simp)

end

/-- Settles O31: the held descriptors first, then the walk record by record, then the flush's end or the command
outstanding. -/
theorem flushWalksQueue : Obligations.FlushWalksQueue := by
  unfold Obligations.FlushWalksQueue
  intro s tag flow arrives clean u f c qs ready inside state distinct records distinctRings named w gone x
  have taken : exec (.flushFlow tag flow) s = .next (startCommandRead (flushFlow tag f u)) :=
    command_taken arrives (exec_flushFlow ..) rfl
  have cleanU : u.eccClean := clean
  rw [flushFlow_begins (s := u) tag inside state cleanU] at taken
  have named_eq : named = u.dfu.held.filterMap (namedBy u f) := rfl
  obtain ⟨bm, lu, es, ap, ec, slots, alive⟩ := completeHeld_foldl named
    (u.setFlow f { c with state := .flushing, flushed := 0 })
  have here : named.foldl completeHeld (u.setFlow f { c with state := .flushing, flushed := 0 }) = w := rfl
  rw [here] at bm lu es ap ec slots alive
  clear_value w
  have frame : w.frame = s.frame := funext fun r => by
    rw [State.frame_congr _ _ r (congrArg BmBlock.frames bm)]
    rfl
  have flows (m : Nat) : w.flow m = if m = f then { c with state := .flushing, flushed := 0 } else s.flow m := by
    rw [State.flow_congr _ _ m (congrArg BmBlock.flows bm)]
    simp [u]
  have walkable : ∀ r ∈ qs, Walkable f w r := fun r among => by
    obtain ⟨named, ring, state, cause⟩ := records r among
    constructor
    · rw [frame]; exact named
    · rw [frame]; exact state
    · rw [frame]; exact cause
    · rw [frame, alive]; exact fun _ => ring
  have held : (heldRings (u.setFlow f { u.flow f with state := .flushing, flushed := 0 }) f).foldl flushHeld
      (u.setFlow f { u.flow f with state := .flushing, flushed := 0 }) = w :=
    (heldRings_foldl (u.setFlow f { u.flow f with state := .flushing, flushed := 0 }) f distinctRings fun _ => rfl).trans here
  obtain ⟨v, walked, leads⟩ := beginFlush_walks tag held (by rw [flows, if_pos rfl]; rfl)
    (by rw [State.eccClean, bm]; exact clean) distinct walkable
  rw [leads] at taken
  rw [frame] at walked
  have gone_eq : gone = qs.filter (retires s.frame) := rfl
  have flow : v.flow f = { c with
      state := .flushing, flushed := gone.length, held := c.held - (gone.map fun r => (s.frame r).cellCount).sum,
      queue := qs.filter fun r => decide ((s.frame r).state = .sending) } := by
    rw [walked.flow, flows, if_pos rfl, frame]
    simp only [Nat.zero_add]
    rfl
  refine ⟨v, flow, fun m other => ?_, fun r among sending => ?_, fun r among => ?_, fun r among moving open_ => ?_,
    fun r beyond => ?_, ?_, ?_, fun r last => ?_, ?_, ?_, ?_, fun n => ?_, walked.held, walked.slots.trans slots,
    walked.lu.trans lu, walked.es.trans es, walked.ap.trans ap, walked.ec.trans ec, ?_⟩
  · rw [walked.flows m other, flows, if_neg other]
  · rw [walked.passed r among, frame, walkedRecord_stays (decide_eq_true sending)]
  · obtain ⟨among, ends⟩ := List.mem_filter.mp among
    rw [walked.passed r among, frame, walkedRecord_retires ends]
  · rw [walked.passed r among, frame, walkedRecord_discards (decide_eq_false moving) open_]
    rfl
  · rw [walked.frames r beyond, frame]
  · rw [walked.freeRecords, bm]
    rfl
  · rw [walked.freeCount, bm, frame]
    rfl
  · rw [walked.freeTail r last, frame]
  · rw [walked.cells, bm]
    rfl
  · rw [walked.cu, frame]
    rfl
  · rw [walked.hp, frame]
    rfl
  · rw [walked.sq, frame]
    rfl
  · have link : (v.flow f).link = c.link := by rw [flow]
    rw [link] at taken
    intro t
    refine ⟨fun empty => ?_, fun holds => ?_⟩
    · exact taken.trans (congrArg (fun v => Outcome.next (startCommandRead v)) (flushTaken_ends tag empty))
    · exact taken.trans (congrArg (fun v => Outcome.next (startCommandRead v)) (flushTaken_waits tag holds))

/-- Settles O30: the checks first; then, with no descriptor held for the flow, the walk over an empty queue, over a lone
SENDING head and over a lone FILLING record. -/
theorem flushFlowTaken : Obligations.FlushFlowTaken := by
  unfold Obligations.FlushFlowTaken
  intro s tag flow arrives clean u f c outstanding
  have checked {st : AdminStatus} (effects : flushFlow tag f u = adminComplete tag 0x13 st 0 u) :
      exec (.flushFlow tag flow) s = .next (u.answered tag 0x13 st 0) := command_answered arrives (exec_flushFlow ..) effects
  refine ⟨fun above => checked (if_pos above), fun inside => ?_⟩
  have decided : flushFlow tag f u = match (u.flow f).state with
      | .unconfigured => adminComplete tag 0x13 .notFound 0 u
      | .flushing => adminComplete tag 0x13 .busy 0 u
      | .enabled | .disabled => match checkRecords (u.flow f).queue u with
        | (true, s1) => beginFlush tag f s1
        | (false, s1) => adminComplete tag 0x13 .aborted 0 s1 := if_neg (by omega)
  have here : u.flow f = c := rfl
  refine ⟨fun state => checked (by rw [decided, here, state]), fun state => checked (by rw [decided, here, state]),
    fun state unheld => ?_⟩
  have taken : exec (.flushFlow tag flow) s = .next (startCommandRead (flushFlow tag f u)) :=
    command_taken arrives (exec_flushFlow ..) rfl
  have cleanU : u.eccClean := clean
  rw [flushFlow_begins (s := u) tag inside state cleanU] at taken
  let w := u.setFlow f { u.flow f with state := .flushing, flushed := 0 }
  have flows (m : Nat) : w.flow m = if m = f then { c with state := .flushing, flushed := 0 } else s.flow m := by simp [w, u, c]
  have queue : (w.flow f).queue = c.queue := by rw [flows, if_pos rfl]
  have held : (heldRings w f).foldl flushHeld w = w := by
    have nothing : heldRings w f = [] := by
      refine List.map_eq_nil_iff.mpr (List.filter_eq_nil_iff.mpr fun x among => ?_)
      have copies : (w.sq x.ring).held = (s.sq x.ring).held := rfl
      rcases Option.eq_none_or_eq_some (s.sq x.ring).held with copy | ⟨h, copy⟩
      · simp [copies, copy]
      · simpa [copies, copy] using unheld x among h copy
    rw [nothing]
    rfl
  have walks {v : State} (walk : (w.flow f).queue.foldl (flushRecord f) (none, w) = (none, v)) (cleanV : v.eccClean) :=
    beginFlush_taken tag held walk (by simp) cleanV
  have start : Walked f w [] [] (w.flow f).queue w := Walked.start cleanU
  have same : (w.flow f).queue.head? = (u.flow f).queue.head? := by rw [queue, here]
  have cells : (w.flow f).held = c.held := by rw [flows, if_pos rfl]
  refine ⟨fun empty none_held => ?_, fun r alone some_held sending => ?_, fun r alone some_held filling named still => ?_⟩
  · rw [walks (v := w) (by rw [queue, empty]; rfl) cleanU, if_pos same, flushTaken_ends tag (cells.trans none_held)] at taken
    refine ⟨w.setFlow f { w.flow f with state := .disabled }, ?_, ?_, fun m other => ?_, rfl, rfl, rfl, rfl, rfl, rfl, rfl, rfl,
      rfl, rfl⟩
    · rw [taken, flows, if_pos rfl]
      rfl
    · simp [flows]
    · simp [flows, other]
  · have walk : (w.flow f).queue.foldl (flushRecord f) (none, w) = (none, w) := by
      rw [queue, alone]
      exact flushRecord_stays start List.not_mem_nil none (decide_eq_true sending)
    rw [walks walk cleanU, if_pos same, flushTaken_waits tag (by rw [cells]; exact some_held)] at taken
    exact taken
  · have state : (w.frame r).state = .filling := filling
    have moving : stays w.frame r = false := by simp [stays, state]
    have unended : retires w.frame r = false := by simp [retires, state]
    have walkable : Walkable f w r := ⟨named, .inl filling, by simp [unended], by simp [unended]⟩
    have gone := start.discard (r := r) List.not_mem_nil named moving unended
    have walk : (w.flow f).queue.foldl (flushRecord f) (none, w) =
        (none, leaveQueue r (w.setFrame r (discardedRecord (w.frame r)))) := by
      rw [queue, alone]
      exact flushRecord_discards start List.not_mem_nil walkable none moving unended
    have left : (w.flow f).queue.erase r = [] := by rw [queue, alone, List.erase_cons_head]
    rw [left] at gone
    rw [walks walk gone.clean] at taken
    have dfu : (leaveQueue r (w.setFrame r (discardedRecord (w.frame r)))).dfu = s.dfu := rfl
    generalize leaveQueue r (w.setFrame r (discardedRecord (w.frame r))) = v at *
    have flow : v.flow f = { c with state := .flushing, flushed := 0, queue := [] } := by
      rw [gone.flow, flows, if_pos rfl]
      rfl
    have idle : consider (v.flow f).link v = v := consider_not_active (by
      rw [State.link_congr _ _ _ (congrArg LuBlock.links gone.lu), flow]
      exact still)
    rw [idle, ite_self, flushTaken_waits tag (by rw [flow]; exact some_held)] at taken
    refine ⟨v, taken, flow, fun m other => ?_, ?_, fun q other => gone.frames q (by simpa using other), gone.cells,
      gone.freeCount, gone.hp, dfu, gone.lu, gone.es, gone.cu, gone.ap, gone.ec⟩
    · rw [gone.flows m other, flows, if_neg other]
    · rw [gone.passed r (by simp), walkedRecord_discards moving unended]
      rfl

end Sys2Proof.Proofs.Flushes

/-! The bytes of a payload read in their cells (R1, R14, R15, R59, R60, R107). -/

namespace Sys2Proof.Proofs.Fills

open Sys2Proof Sys2Proof.Machine Host Sys2Proof.Proofs.Readings Sys2Proof.Proofs.Retirement
open Sys2Proof.Proofs.Descriptors Sys2Proof.Proofs.Arbitration Sys2Proof.Proofs.Checks

/-! ### One byte -/

section
variable (r : Nat) (x : Byte) {s : State} {f : FrameRecord} (here : s.frame r = f)
include here

theorem fillByte_inside (room : f.fillOffset + 1 < 256) (more : 256 * f.filled + f.fillOffset + 1 ≠ f.length) :
    fillByte r x s =
      (true, (s.setCellByte f.fillCell f.fillOffset x).setFrame r { f with fillOffset := f.fillOffset + 1 }) := by
  subst here
  exact if_pos ⟨room, more⟩

theorem fillByte_last (ends : 256 * f.filled + f.fillOffset + 1 = f.length) (whole : f.filled + 1 = f.cellCount) :
    fillByte r x s = (true, (s.setCellByte f.fillCell f.fillOffset x).setFrame r { f with
      filled := f.filled + 1, fillOffset := (f.fillOffset + 1) % 256,
      state := if f.state = .filling then .ready else f.state }) := by
  subst here
  exact (if_neg fun within => within.2 ends).trans (if_pos whole)

/-- The state in which a completed cell's link entry is read (R14). -/
def cellComplete (r : Nat) (x : Byte) (f : FrameRecord) (s : State) : State :=
  (s.setCellByte f.fillCell f.fillOffset x).setFrame r { f with filled := f.filled + 1, fillOffset := 0 }

variable (full : f.fillOffset + 1 = 256) (more : f.filled + 1 ≠ f.cellCount)
include full more

theorem fillByte_next {d : Nat} (sound : tableGet eccUnlisted s.bm.linkEcc f.fillCell = .valid)
    (entry : s.linkEntry f.fillCell = some d) : fillByte r x s =
      (true, (s.setCellByte f.fillCell f.fillOffset x).setFrame r { f with
        filled := f.filled + 1, fillOffset := 0, fillCell := d }) := by
  have checked : checkLink f.fillCell (cellComplete r x f s) = (true, cellComplete r x f s) :=
    checkLink_valid (by simpa [cellComplete] using sound)
  have kept : (cellComplete r x f s).linkEntry f.fillCell = some d := by simpa [cellComplete] using entry
  subst here
  refine (if_neg fun within => absurd within.1 (by rw [full]; decide)).trans ((if_neg more).trans ?_)
  unfold cellComplete at checked kept
  dsimp only
  rw [checked]
  dsimp only
  rw [kept]
  simp

theorem fillByte_refused (bad : tableGet eccUnlisted s.bm.linkEcc f.fillCell = .uncorrectable) : fillByte r x s =
    (false, sendReport (.fatal .linkTableUncorrectable) (cellComplete r x f s)) := by
  have checked : checkLink f.fillCell (cellComplete r x f s) =
      (false, sendReport (.fatal .linkTableUncorrectable) (cellComplete r x f s)) :=
    checkLink_uncorrectable (by simpa [cellComplete] using bad)
  subst here
  refine (if_neg fun within => absurd within.1 (by rw [full]; decide)).trans ((if_neg more).trans ?_)
  unfold cellComplete at checked ⊢
  dsimp only
  rw [checked]

end

/-! ### The bytes written -/

/-- What the bytes `xs`, written in their places for the record `r`, make of the state `s`. -/
structure Written (r : Nat) (place : Nat → Nat × Nat) (xs : List Byte) (s t : State) : Prop where
  stays : ∃ a b c, t = s.onBm fun m => { m with cells := a, cellEcc := b, frames := c }
  clean : s.bm.cellEcc = [] → t.bm.cellEcc = []
  bytes : ∀ k < xs.length, t.cellByte (place k).1 (place k).2 = xs.getD k 0
  others : ∀ c, ∀ o < 256, (∀ k < xs.length, ¬ (c = (place k).1 ∧ o = (place k).2)) → t.cellByte c o = s.cellByte c o
  records : ∀ q, q ≠ r → t.frame q = s.frame q

theorem Written.none (r : Nat) (place : Nat → Nat × Nat) (s : State) : Written r place [] s s where
  stays := ⟨_, _, _, rfl⟩
  clean := id
  bytes _ below := absurd below (Nat.not_lt_zero _)
  others _ _ _ _ := rfl
  records _ _ := rfl

theorem Written.one (r : Nat) {place : Nat → Nat × Nat} (x : Byte) (s : State) (g : FrameRecord) (inside : (place 0).2 < 256) :
    Written r place [x] s ((s.setCellByte (place 0).1 (place 0).2 x).setFrame r g) where
  stays := ⟨_, _, _, rfl⟩
  clean empty := by simp [State.setFrame, State.setCellByte, State.onBm, empty, tableErase]
  bytes k below := by
    obtain rfl : k = 0 := by simpa using below
    exact (State.cellByte_setCellByte ..).trans (if_pos rfl)
  others c o small apart := by
    have elsewhere := apart 0 (by simp)
    exact (State.cellByte_setCellByte ..).trans (if_neg (by simp only [cellBytes]; omega))
  records q other := by simp [other]

theorem Written.cons {r : Nat} {place : Nat → Nat × Nat} {x : Byte} {xs : List Byte} {s t u : State}
    (inside : (place 0).2 < 256) (apart : ∀ k < xs.length, place 0 ≠ place (k + 1)) (first : Written r place [x] s t)
    (rest : Written r (fun k => place (k + 1)) xs t u) : Written r place (x :: xs) s u where
  stays := by
    obtain ⟨a, b, c, rfl⟩ := first.stays
    obtain ⟨a', b', c', rfl⟩ := rest.stays
    exact ⟨a', b', c', rfl⟩
  clean := rest.clean ∘ first.clean
  bytes k below := by
    cases k with
    | zero =>
      rw [rest.others _ _ inside fun k far same => apart k far (Prod.ext same.1 same.2)]
      exact first.bytes 0 (by simp)
    | succ k => exact rest.bytes k (by simpa using below)
  others c o small apart := by
    rw [rest.others c o small fun k below => apart (k + 1) (by simpa using below)]
    exact first.others c o small fun k below => apart k (by simp at below ⊢; omega)
  records q other := (rest.records q other).trans (first.records q other)

/-! ### Where the bytes stand -/

/-- The place `k` bytes on from an offset of the first of a frame's cells. -/
def fillPlace (cells : List Nat) (o k : Nat) : Nat × Nat := (cells.getD ((o + k) / 256) 0, (o + k) % 256)

theorem fillPlace_succ (cells : List Nat) (o k : Nat) : fillPlace cells o (k + 1) = fillPlace cells (o + 1) k := by
  rw [fillPlace, fillPlace, Nat.add_right_comm, Nat.add_assoc]

theorem fillPlace_tail (c : Nat) (cells : List Nat) (k : Nat) : fillPlace (c :: cells) 256 k = fillPlace cells 0 k := by
  have cell : (256 + k) / 256 = k / 256 + 1 := by omega
  have offset : (256 + k) % 256 = k % 256 := by omega
  rw [fillPlace, fillPlace, cell, offset, List.getD_cons_succ, Nat.zero_add]

theorem fillPlace_first (cells : List Nat) {o : Nat} (inside : o < 256) : fillPlace cells o 0 = (cells.getD 0 0, o) := by
  rw [fillPlace, Nat.add_zero, Nat.div_eq_of_lt inside, Nat.mod_eq_of_lt inside]

theorem fillPlace_apart {cells : List Nat} (distinct : cells.Nodup) {o k : Nat}
    (within : (o + (k + 1)) / 256 < cells.length) : fillPlace cells o 0 ≠ fillPlace cells o (k + 1) := by
  intro same
  obtain ⟨cell, offset⟩ := Prod.mk.inj same
  have first : (o + 0) / 256 < cells.length := by omega
  rw [List.getD_eq_getElem _ _ first, List.getD_eq_getElem _ _ within] at cell
  have index := (distinct.getElem_inj_iff).mp cell
  omega

/-! ### The bytes of a read -/

/-- The record `f`, of which `cells` are still to be filled, in the order of the link entries (R2, R14). -/
structure Fill (f : FrameRecord) (cells : List Nat) (s : State) : Prop where
  rest : cells.length = f.cellCount - f.filled
  whole : f.cellCount = (f.length + 255) / 256
  open_ : f.filled < f.cellCount
  inside : f.fillOffset < 256
  head : cells.head? = some f.fillCell
  distinct : cells.Nodup
  chain : ∀ m, m + 1 < cells.length → s.linkEntry (cells.getD m 0) = cells[m + 1]?

/-- A record after `n` bytes that are not its last (R14). -/
def filledBy (f : FrameRecord) (cells : List Nat) (n : Nat) : FrameRecord :=
  { f with
    filled := f.filled + (f.fillOffset + n) / 256, fillCell := cells.getD ((f.fillOffset + n) / 256) 0,
    fillOffset := (f.fillOffset + n) % 256 }

/-- A record after its last byte: every cell filled, READY if it was FILLING (R15). -/
def filledWhole (f g : FrameRecord) : Prop :=
  g = { f with
    filled := f.cellCount, state := if f.state = .filling then .ready else f.state, fillCell := g.fillCell,
    fillOffset := g.fillOffset }

section
variable {f : FrameRecord} {cells : List Nat} {s : State} (fill : Fill f cells s)
include fill

theorem Fill.first : cells.getD 0 0 = f.fillCell := by
  rw [List.getD_eq_getElem?_getD, ← List.head?_eq_getElem?, fill.head]
  rfl

theorem Fill.place : fillPlace cells f.fillOffset 0 = (f.fillCell, f.fillOffset) := by
  rw [fillPlace_first cells fill.inside, fill.first]

theorem Fill.filledBy_zero : filledBy f cells 0 = f := by
  simp only [filledBy, Nat.add_zero, Nat.div_eq_of_lt fill.inside, Nat.mod_eq_of_lt fill.inside, fill.first]

/-- The fill goes on in the same cell. -/
theorem Fill.within (room : f.fillOffset + 1 < 256) {t : State} (links : ∀ c, t.linkEntry c = s.linkEntry c) :
    Fill { f with fillOffset := f.fillOffset + 1 } cells t :=
  { fill with inside := room, chain := fun m inside => (links _).trans (fill.chain m inside) }

end

theorem filledBy_within (f : FrameRecord) (cells : List Nat) (n : Nat) :
    filledBy { f with fillOffset := f.fillOffset + 1 } cells n = filledBy f cells (n + 1) := by
  simp only [filledBy, Nat.add_assoc, Nat.add_comm 1 n]

/-- The fill goes on in the cell that the completed one's link entry names. -/
theorem Fill.next {f : FrameRecord} {c d : Nat} {cells : List Nat} {s t : State} (fill : Fill f (c :: d :: cells) s)
    (links : ∀ c, t.linkEntry c = s.linkEntry c) :
    Fill { f with filled := f.filled + 1, fillOffset := 0, fillCell := d } (d :: cells) t := by
  have count := fill.rest
  simp only [List.length_cons] at count
  exact {
    rest := by simp only [List.length_cons]; omega
    whole := fill.whole
    open_ := by show f.filled + 1 < f.cellCount; omega
    inside := by simp
    head := rfl
    distinct := (List.nodup_cons.mp fill.distinct).2
    chain := fun m inside => by
      rw [links]
      simpa using fill.chain (m + 1) (by simpa using inside) }

theorem filledBy_next {f : FrameRecord} (full : f.fillOffset + 1 = 256) (c d : Nat) (cells : List Nat) (n : Nat) :
    filledBy { f with filled := f.filled + 1, fillOffset := 0, fillCell := d } (d :: cells) n =
      filledBy f (c :: d :: cells) (n + 1) := by
  have cell : (f.fillOffset + (n + 1)) / 256 = n / 256 + 1 := by omega
  have offset : (f.fillOffset + (n + 1)) % 256 = n % 256 := by omega
  simp only [filledBy, cell, offset, Nat.zero_add, List.getD_cons_succ]
  congr 1
  omega

/-- The bytes of a read that the frame has room for, written one after the other (R14, R15). -/
theorem fillBytes_writes {r : Nat} {xs : List Byte} {f : FrameRecord} {cells : List Nat} {s : State} (here : s.frame r = f)
    (fill : Fill f cells s) (links : s.bm.linkEcc = []) (room : 256 * f.filled + f.fillOffset + xs.length ≤ f.length) :
    ∃ t, fillBytes r xs s = (true, t) ∧ Written r (fillPlace cells f.fillOffset) xs s t ∧
      (256 * f.filled + f.fillOffset + xs.length < f.length → t.frame r = filledBy f cells xs.length) ∧
      (0 < xs.length → 256 * f.filled + f.fillOffset + xs.length = f.length → filledWhole f (t.frame r)) := by
  induction xs generalizing f cells s with
  | nil => exact ⟨s, rfl, .none .., fun _ => here.trans fill.filledBy_zero.symm, fun empty => absurd empty (Nat.lt_irrefl 0)⟩
  | cons x xs ih =>
    have inside : (fillPlace cells f.fillOffset 0).2 < 256 := by rw [fill.place]; exact fill.inside
    have first (g : FrameRecord) : Written r (fillPlace cells f.fillOffset) [x] s
        ((s.setCellByte f.fillCell f.fillOffset x).setFrame r g) := by
      have one := Written.one r x s g inside
      rwa [fill.place] at one
    have count := fill.rest
    have whole := fill.whole
    have low := fill.inside
    have some_cell := fill.open_
    simp only [List.length_cons] at room ⊢
    have apart : ∀ k < xs.length, fillPlace cells f.fillOffset 0 ≠ fillPlace cells f.fillOffset (k + 1) := fun k below =>
      fillPlace_apart fill.distinct (by omega)
    rw [fillBytes, here, if_pos fill.open_]
    by_cases ends : 256 * f.filled + f.fillOffset + 1 = f.length
    · obtain rfl : xs = [] := List.eq_nil_of_length_eq_zero (by omega)
      have full : f.filled + 1 = f.cellCount := by omega
      rw [fillByte_last r x here ends full]
      refine ⟨_, rfl, first _, fun more => absurd more (by simp; omega), fun _ _ => ?_⟩
      simp [filledWhole, full]
    · by_cases within : f.fillOffset + 1 < 256
      · rw [fillByte_inside r x here within ends]
        obtain ⟨t, leads, written, part, end_⟩ := ih (s := (s.setCellByte f.fillCell f.fillOffset x).setFrame r
          { f with fillOffset := f.fillOffset + 1 }) (by simp) (fill.within within (by simp)) (by simpa using links)
          (by dsimp only; omega)
        refine ⟨t, leads, (first { f with fillOffset := f.fillOffset + 1 }).cons inside apart ?_, fun more => ?_,
          fun _ all => ?_⟩
        · simpa only [fillPlace_succ] using written
        · rw [part (by dsimp only; omega), filledBy_within]
        · exact end_ (by omega) (by dsimp only; omega)
      · have full : f.fillOffset + 1 = 256 := by omega
        obtain ⟨c, d, cells, rfl⟩ : ∃ c d cs, cells = c :: d :: cs := by
          match cells, count with
          | [], short => simp at short; omega
          | [c], short => simp at short; omega
          | c :: d :: cs, _ => exact ⟨c, d, cs, rfl⟩
        obtain rfl : c = f.fillCell := by simpa using fill.head
        have entry : s.linkEntry f.fillCell = some d := by simpa using fill.chain 0 (by simp)
        rw [fillByte_next r x here full (by simp at count; omega) (by rw [links]; rfl) entry]
        obtain ⟨t, leads, written, part, end_⟩ := ih (s := (s.setCellByte f.fillCell f.fillOffset x).setFrame r
          { f with filled := f.filled + 1, fillOffset := 0, fillCell := d }) (by simp) (fill.next (by simp))
          (by simpa using links) (by dsimp only; omega)
        refine ⟨t, leads, (first { f with filled := f.filled + 1, fillOffset := 0, fillCell := d }).cons inside apart ?_,
          fun more => ?_, fun _ all => ?_⟩
        · simpa only [fillPlace_succ, full, fillPlace_tail] using written
        · rw [part (by dsimp only; omega), filledBy_next full]
        · exact end_ (by omega) (by dsimp only; omega)

/-! ### What a read's end leaves -/

/-- The fetch's next step changes the slot, its read, what went to the host and the fetch ends on their way, and nothing
else. -/
theorem advancePayload_keeps (i n r : Nat) (gs : List Segment) (j off k : Nat) (t : State) :
    let v := advancePayload i n r gs j off k t
    v.bm = { t.bm with fetchEnds := v.bm.fetchEnds } ∧ v.dfu = { t.dfu with slots := v.dfu.slots } ∧ v.lu = t.lu ∧
    v.es = t.es ∧ v.cu = t.cu ∧ v.ap = t.ap ∧ v.ec = t.ec ∧
    ∀ m, m ≠ i → v.slot m = t.slot m ∧ v.read m = t.read m := by
  have issued (x : FetchSlot) (g : Segment) (o m : Nat) (other : m ≠ i) :
      (issuePayload i g o (t.setSlot i x)).slot m = t.slot m ∧ (issuePayload i g o (t.setSlot i x)).read m = t.read m := by
    simp [issuePayload, issueRead, other]
  have ended (m : Nat) (other : m ≠ i) : (endFetch i r true t).slot m = t.slot m ∧ (endFetch i r true t).read m = t.read m :=
    ⟨show (t.setSlot i .idle).slot m = t.slot m by simp [other], rfl⟩
  dsimp only
  unfold advancePayload
  split
  · exact ⟨rfl, rfl, rfl, rfl, rfl, rfl, rfl, ended⟩
  · split
    · exact ⟨rfl, rfl, rfl, rfl, rfl, rfl, rfl, issued _ _ _⟩
    · split
      · exact ⟨rfl, rfl, rfl, rfl, rfl, rfl, rfl, ended⟩
      · exact ⟨rfl, rfl, rfl, rfl, rfl, rfl, rfl, issued _ _ _⟩

/-! ### The report of a completed cell -/

section
variable {r l : Nat} {v : State} (link : (v.flow (v.frame r).flow).link = l)
include link

/-- A completed cell of a frame that is not SENDING goes to the ES of an idle link (R14, R89). -/
theorem reportFill_considers (state : (v.frame r).state ≠ .sending) (idle : (v.link l).serializer = none) :
    reportFill r v = afterLinkEnd l v := by
  unfold reportFill
  simp only [link, if_neg state, if_pos idle]

theorem reportFill_busy (state : (v.frame r).state ≠ .sending) (busy : (v.link l).serializer ≠ none) :
    reportFill r v = v := by
  unfold reportFill
  simp only [link, if_neg state, if_neg busy]

/-- Nothing follows on a link that is neither ACTIVE nor DRAINING. -/
theorem reportFill_still (state : (v.frame r).state ≠ .sending)
    (still : (v.link l).serializer ≠ none ∨ ((v.link l).state ≠ .active ∧ (v.link l).state ≠ .draining)) :
    reportFill r v = v := by
  by_cases idle : (v.link l).serializer = none
  · obtain ⟨active, draining⟩ := still.resolve_left fun busy => busy idle
    rw [reportFill_considers link state idle, afterLinkEnd]
    cases here : (v.link l).state with
    | active => exact absurd here active
    | draining => exact absurd here draining
    | disabled => rfl
    | awaitPartner => rfl
    | failed => rfl
  · exact reportFill_busy link state idle

variable (state : (v.frame r).state = .sending) {z : Serializer} (busy : (v.link l).serializer = some z)
include state busy

/-- A fill report is for the record that the serializer sends, and not for a stopped one (R18, R107). -/
theorem reportFill_ignored (ignores : z.record ≠ r ∨ z.stopped = true) : reportFill r v = v := by
  have taken : takeFillReport l r (v.frame r).filled v = v := by
    rw [takeFillReport, busy]
    refine if_neg fun both => ?_
    rcases ignores with other | stopped
    · exact other both.1
    · simp [stopped] at both
  unfold reportFill
  simp only [link, if_pos state, taken, busy]
  simp

variable (record : z.record = r) (runs : z.stopped = false)
include record runs

theorem reportFill_transmitting (transmitting : z.state = .transmitting) : reportFill r v =
    v.setLink l { v.link l with serializer := some { z with filled := (v.frame r).filled } } := by
  have taken : takeFillReport l r (v.frame r).filled v =
      v.setLink l { v.link l with serializer := some { z with filled := (v.frame r).filled } } := by
    rw [takeFillReport, busy]
    dsimp only
    rw [if_pos ⟨record, runs⟩, if_neg (by simp [transmitting])]
    rfl
  unfold reportFill
  simp only [link, if_pos state, taken]
  simp

theorem reportFill_starved (starved : z.state = .starved) (clean : v.bm.cellEcc = []) : reportFill r v =
    v.setLink l { v.link l with
      serializer := some { z with filled := (v.frame r).filled, state := .transmitting, timer := none } } := by
  have taken : takeFillReport l r (v.frame r).filled v = v.setLink l { v.link l with
      serializer := some { z with filled := (v.frame r).filled, state := .transmitting, timer := none } } := by
    rw [takeFillReport, busy]
    dsimp only
    rw [if_pos ⟨record, runs⟩, if_pos starved, beginCell_clean (z := { z with filled := (v.frame r).filled })
      (by simpa using clean) (by simp [setSerializer])]
    simp [setSerializer]
  unfold reportFill
  simp only [link, if_pos state, taken]
  simp

end

/-- Bytes presented to a frame that takes them (R14). -/
theorem presentBytes_fills {r : Nat} {s : State} (xs : List Byte) (sound : tableGet eccUnlisted s.bm.frameEcc r = .valid)
    (state : (s.frame r).state = .filling ∨ (s.frame r).state = .sending) : presentBytes r xs s = fillBytes r xs s := by
  rw [presentBytes, checkRecord_valid sound]
  dsimp only
  rcases state with state | state <;> rw [state]

section
variable {s t : State} {i : Fin 8} {n r j off : Nat} {gs : List Segment} {e : HostRead} {xs : List Byte}
  (running : s.hp.device = .running) (slot : s.slot i = .payload n r gs j off) (read : s.read i = some e)
  (awaits : e.cutOff = false) (whole : xs.length = e.length)
include running slot read awaits whole

/-- The event of a payload read whose bytes were taken: the fetch's next step, then the report of a cell completed. -/
theorem exec_payloadReadReturn_taken (presented : presentBytes r xs (freeRead i s) = (true, t)) :
    exec (.payloadReadReturn i xs []) s =
      .next (if (s.frame r).filled < ((advancePayload i n r gs j off xs.length t).frame r).filled ∧
          isHead r (advancePayload i n r gs j off xs.length t) = true then
        reportFill r (advancePayload i n r gs j off xs.length t) else advancePayload i n r gs j off xs.length t) := by
  rw [exec_payloadReadReturn_running running slot read awaits whole, returnPayload, presented]
  rfl

/-- The event of a payload read whose bytes met an uncorrectable error (R18). -/
theorem exec_payloadReadReturn_refused (presented : presentBytes r xs (freeRead i s) = (false, t)) :
    exec (.payloadReadReturn i xs []) s =
      .next (if (s.frame r).filled < (t.frame r).filled ∧ isHead r t = true then reportFill r t else t) := by
  rw [exec_payloadReadReturn_running running slot read awaits whole, returnPayload, presented]
  rfl

end

section
variable {i : Instr} {s v : State} {f : FrameRecord} {r l : Nat}
  (flow : ∀ q, v.flow q = s.flow q) (link : ∀ q, v.link q = s.link q) (ofFlow : (v.frame r).flow = f.flow)
include flow ofFlow

theorem isHead_filled : isHead r v = true ↔ (s.flow f.flow).queue.head? = some r := by
  rw [isHead, ofFlow, flow]
  exact decide_eq_true_iff

variable (leads : exec i s = .next (if f.filled < (v.frame r).filled ∧ isHead r v = true then reportFill r v else v))
include leads

/-- Without a completed cell of a queue's head nothing is reported (R14). -/
theorem fill_unreported (flat : ¬ f.filled < (v.frame r).filled ∨ ¬ (s.flow f.flow).queue.head? = some r) :
    exec i s = .next v := by
  refine leads.trans (congrArg Outcome.next (if_neg fun both => ?_))
  exact flat.elim (fun still => still both.1) fun behind => behind ((isHead_filled flow ofFlow).mp both.2)

variable (rises : f.filled < (v.frame r).filled) (first : (s.flow f.flow).queue.head? = some r)
  (on : (s.flow f.flow).link = l)
include rises first

theorem fill_reported {u : State} (told : reportFill r v = u) : exec i s = .next u :=
  leads.trans (by rw [if_pos ⟨rises, (isHead_filled flow ofFlow).mpr first⟩, told])

include link on

/-- The report of a frame that is not SENDING goes to the ES (R14, R89). -/
theorem fill_considered (state : (v.frame r).state ≠ .sending) :
    ((s.link l).serializer ≠ none ∨ ((s.link l).state ≠ .active ∧ (s.link l).state ≠ .draining) →
      exec i s = .next v) ∧
    ((s.link l).serializer = none → (s.link l).state = .active → exec i s = .next (consider l v)) := by
  have onLink : (v.flow (v.frame r).flow).link = l := by rw [ofFlow, flow, on]
  refine ⟨fun still => fill_reported flow ofFlow leads rises first (reportFill_still onLink state (by rwa [link])),
    fun idle active => fill_reported flow ofFlow leads rises first
      ((reportFill_considers onLink state (by rwa [link])).trans ?_)⟩
  rw [afterLinkEnd, link, active]

/-- The report of a SENDING frame goes to the serializer that sends it (R107). -/
theorem fill_sent (state : (v.frame r).state = .sending) {z : Serializer} (busy : (s.link l).serializer = some z) :
    (z.record ≠ r ∨ z.stopped = true → exec i s = .next v) ∧
    (z.record = r → z.stopped = false →
      (z.state = .transmitting → exec i s = .next (v.setLink l { s.link l with
        serializer := some { z with filled := (v.frame r).filled } })) ∧
      (z.state = .starved → v.bm.cellEcc = [] → exec i s = .next (v.setLink l { s.link l with
        serializer := some { z with filled := (v.frame r).filled, state := .transmitting, timer := none } }))) := by
  have onLink : (v.flow (v.frame r).flow).link = l := by rw [ofFlow, flow, on]
  rw [← link] at busy ⊢
  exact ⟨fun ignores => fill_reported flow ofFlow leads rises first (reportFill_ignored onLink state busy ignores),
    fun record runs => ⟨fun sends => fill_reported flow ofFlow leads rises first
      (reportFill_transmitting onLink state busy record runs sends), fun starves clean =>
        fill_reported flow ofFlow leads rises first (reportFill_starved onLink state busy record runs starves clean)⟩⟩

end

/-- Settles O23: the bytes in their places, the fetch's next step, and the report of the cells completed. -/
theorem payloadBytesFillCells : Obligations.PayloadBytesFillCells := by
  unfold Obligations.PayloadBytesFillCells
  intro s i n r j off gs g e xs cells running clean slot read awaits whole segment f p total state count open_ inside some_byte
    room distinct rest head chain
  have fill : Fill f cells (freeRead i s) := ⟨rest, count, open_, inside, head, distinct, chain⟩
  obtain ⟨cellEcc, linkEcc, frameEcc⟩ := clean
  have sum : total = 256 * f.filled + f.fillOffset + xs.length := (Nat.add_assoc ..).symm
  rw [sum] at room
  obtain ⟨t, filled, written, part, end_⟩ := fillBytes_writes (s := freeRead i s) rfl fill linkEcc room
  have presented : presentBytes r xs (freeRead i s) = (true, t) := by
    rw [presentBytes_fills (s := freeRead i s) xs (by rw [show (freeRead i s).bm.frameEcc = [] from frameEcc]; rfl) state, filled]
  have leads := exec_payloadReadReturn_taken running slot read awaits whole presented
  obtain ⟨a, b, c, stays⟩ := written.stays
  have freed : t.read i = none := by rw [stays]; exact (freeRead_read ..).trans (if_pos rfl)
  have out : t.hp.out = s.hp.out := by rw [stays]; rfl
  have ends : t.bm.fetchEnds = s.bm.fetchEnds := by rw [stays]; rfl
  have piece (more : off + xs.length < g.length) := advancePayload_piece i n r j off xs.length t segment more
  have next (past : g.length ≤ off + xs.length) {h : Segment} (follows : gs[j + 1]? = some h) :=
    advancePayload_segment i n r j off xs.length t segment past follows
  have last (past : g.length ≤ off + xs.length) (none_left : gs[j + 1]? = none) :=
    advancePayload_ends i n r j off xs.length t segment past none_left
  obtain ⟨bm, dfu, lu, es, cu, ap, ec, slots⟩ := advancePayload_keeps i n r gs j off xs.length t
  have frame (q : Nat) : (advancePayload i n r gs j off xs.length t).frame q = t.frame q := advancePayload_frames ..
  generalize advancePayload i n r gs j off xs.length t = v at *
  have cell (c o : Nat) : v.cellByte c o = t.cellByte c o := State.cellByte_congr _ _ _ _ (by rw [bm])
  have bmKept : v.bm = { s.bm with
      cells := t.bm.cells, cellEcc := t.bm.cellEcc, frames := t.bm.frames, fetchEnds := v.bm.fetchEnds } := by
    rw [bm, stays]
    rfl
  have dfuKept : v.dfu = { s.dfu with slots := v.dfu.slots } := by
    rw [dfu, stays]
    rfl
  have shortOf (more : total < f.length) : v.frame r = filledBy f cells xs.length :=
    (frame r).trans (part (by rw [sum] at more; exact more))
  have wholeOf (all : total = f.length) : filledWhole f (v.frame r) := by
    rw [frame]
    exact end_ some_byte (by rw [sum] at all; exact all)
  have named : (if f.state = .filling then FrameState.ready else f.state) = if f.state = .filling then .ready else .sending := by
    rcases state with state | state <;> simp [state]
  refine ⟨v, fun k below => (cell ..).trans (written.bytes k below), fun c o small apart =>
    (cell ..).trans (written.others c o small apart), shortOf,
    fun all => (wholeOf all).trans (by rw [named]), fun q other => (frame q).trans (written.records q other),
    fun more => ?_, fun past h follows => ?_, fun past none_left => ?_, fun m other => ?_,
    by rw [dfuKept], by rw [dfuKept], by rw [bmKept], by rw [bmKept], by rw [bmKept], by rw [bmKept], by rw [bmKept],
    by rw [bmKept], by rw [lu, stays]; rfl, by rw [es, stays]; rfl, by rw [cu, stays]; rfl, by rw [ap, stays]; rfl,
    by rw [ec, stays]; rfl, ?_⟩
  · rw [piece more]
    exact ⟨by simp [issuePayload, issueRead], by simp [issuePayload, issueRead, largestRead, readTimeoutUs],
      by simp [issuePayload, issueRead, largestRead, out], ends⟩
  · rw [next past follows]
    exact ⟨by simp [issuePayload, issueRead], by simp [issuePayload, issueRead, largestRead, readTimeoutUs],
      by simp [issuePayload, issueRead, largestRead, out], ends⟩
  · rw [last past none_left]
    refine ⟨show (t.setSlot i .idle).slot i = _ by simp, freed, out, ?_⟩
    rw [← ends]
    rfl
  · obtain ⟨slot, read⟩ := slots m other
    rw [slot, read, stays]
    exact ⟨rfl, (freeRead_read ..).trans (if_neg other)⟩
  · have flow (q : Nat) : v.flow q = s.flow q := State.flow_congr _ _ _ (by rw [bmKept])
    have link (q : Nat) : v.link q = s.link q := State.link_congr _ _ _ (by rw [lu, stays]; rfl)
    have cleanV : v.bm.cellEcc = [] := by rw [bmKept]; exact written.clean cellEcc
    have becomes : v.frame r = filledBy f cells xs.length ∨ filledWhole f (v.frame r) :=
      (Nat.lt_or_eq_of_le room).imp (fun more => shortOf (by rw [sum]; exact more)) fun all => wholeOf (by rw [sum]; exact all)
    have ofFlow : (v.frame r).flow = f.flow := by
      rcases becomes with same | same
      · rw [same, filledBy]
      · rw [same]
    refine ⟨fill_unreported flow ofFlow leads, fun up first filling => fill_considered flow link ofFlow leads up first rfl ?_,
      fun up first sending z busy => ?_⟩
    · rcases becomes with same | same <;> rw [same]
      · exact (show f.state ≠ .sending by rw [filling]; decide)
      · exact (show (if f.state = .filling then FrameState.ready else f.state) ≠ .sending by rw [filling]; decide)
    · have phase : (v.frame r).state = .sending := by
        rcases becomes with same | same <;> rw [same] <;> simp [filledBy, sending]
      obtain ⟨ignored, taken⟩ := fill_sent flow link ofFlow leads up first rfl phase busy
      exact ⟨ignored, fun record runs => (taken record runs).imp id fun starved starves => starved starves cleanV⟩

end Sys2Proof.Proofs.Fills

/-! The events that an uncorrectable record or link entry keeps from being carried out (R18, R155). -/

namespace Sys2Proof.Proofs.Refusals

open Sys2Proof Sys2Proof.Machine Host Sys2Proof.Proofs.Readings Sys2Proof.Proofs.Descriptors
open Sys2Proof.Proofs.FetchSlots Sys2Proof.Proofs.Retirement Sys2Proof.Proofs.FlowCommands Sys2Proof.Proofs.LinkMessages
open Sys2Proof.Proofs.Arbitration Sys2Proof.Proofs.FrameEnds Sys2Proof.Proofs.LinkFailures Sys2Proof.Proofs.Checks
open Sys2Proof.Proofs.Flushes Sys2Proof.Proofs.Fills

/-! ### Checks that refuse -/

/-- Records checked in order, up to the first uncorrectable one. -/
theorem checkRecords_refused {before : List Nat} {r : Nat} (after : List Nat) {s : State}
    (sound : ∀ q ∈ before, tableGet eccUnlisted s.bm.frameEcc q = .valid)
    (bad : tableGet eccUnlisted s.bm.frameEcc r = .uncorrectable) :
    checkRecords (before ++ r :: after) s = (false, sendReport (.fatal .frameTableUncorrectable) s) := by
  induction before with
  | nil => rw [List.nil_append, checkRecords, checkRecord_uncorrectable bad]
  | cons q before ih =>
    rw [List.cons_append, checkRecords, checkRecord_valid (sound q List.mem_cons_self)]
    exact ih fun p among => sound p (List.mem_cons_of_mem _ among)

/-- Link entries checked in order, up to the first uncorrectable one. -/
theorem checkLinks_refused {before : List Nat} {c : Nat} (after : List Nat) {s : State}
    (sound : ∀ q ∈ before, tableGet eccUnlisted s.bm.linkEcc q = .valid)
    (bad : tableGet eccUnlisted s.bm.linkEcc c = .uncorrectable) :
    checkLinks (before ++ c :: after) s = (false, sendReport (.fatal .linkTableUncorrectable) s) := by
  induction before with
  | nil => rw [List.nil_append, checkLinks, checkLink_uncorrectable bad]
  | cons q before ih =>
    rw [List.cons_append, checkLinks, checkLink_valid (sound q List.mem_cons_self)]
    exact ih fun p among => sound p (List.mem_cons_of_mem _ among)

/-! ### Admissions -/

/-- The first uncorrectable error that an admission of `need` cells with the record `q` meets: the record itself, or, the
record sound, one of the link entries read (R5, R18). -/
def meetsError (s : State) (need q : Nat) (cause : FatalCause) : Prop :=
  (tableGet eccUnlisted s.bm.frameEcc q = .uncorrectable ∧ cause = .frameTableUncorrectable) ∨
  (tableGet eccUnlisted s.bm.frameEcc q = .valid ∧ cause = .linkTableUncorrectable ∧
    ∃ (cells before after : List Nat) (c : Nat), cells.length = need ∧ s.bm.freeHead = cells.head? ∧
      (∀ j, j + 1 < need → s.linkEntry (cells.getD j 0) = cells[j + 1]?) ∧
      cells.take (if need < s.bm.freeCount then need else need - 1) = before ++ c :: after ∧
      (∀ x ∈ before, tableGet eccUnlisted s.bm.linkEcc x = .valid) ∧ tableGet eccUnlisted s.bm.linkEcc c = .uncorrectable)

/-- The link entries that an allocation of a list of cells reads (R5). -/
theorem allocationReads_of_entries {s : State} {cells : List Nat} (some_cell : 0 < cells.length)
    (head : s.bm.freeHead = cells.head?)
    (chained : ∀ j, j + 1 < cells.length → s.linkEntry (cells.getD j 0) = cells[j + 1]?) :
    allocationReads s cells.length =
      cells.take (if cells.length < s.bm.freeCount then cells.length else cells.length - 1) := by
  rw [allocationReads, allocationCells_of_entries some_cell head chained]
  split
  · rw [List.take_length]
  · rw [List.dropLast_eq_take]

/-- An admission that meets an uncorrectable error gets no answer (R18). -/
theorem requestAdmission_unanswered (n : Nat) (d : Descriptor) {need q : Nat} {cause : FatalCause} {s : State}
    (state : (s.flow d.flow).state = .enabled) (cap : (s.flow d.flow).held + need ≤ (s.flow d.flow).cap)
    (free : need ≤ s.bm.freeCount) (records : s.bm.freeRecords.head? = some q) (error : meetsError s need q cause) :
    requestAdmission n d need s = (.noAnswer, sendReport (.fatal cause) s) := by
  obtain ⟨rest, list⟩ := List.head?_eq_some_iff.mp records
  unfold requestAdmission
  dsimp only
  rw [if_neg (by simp [state]), if_neg (Nat.not_lt.mpr cap), if_neg (Nat.not_lt.mpr free), list]
  dsimp only
  rcases error with ⟨bad, rfl⟩ | ⟨sound, rfl, cells, before, after, c, rfl, head, chained, reads, passed, bad⟩
  · rw [checkRecord_uncorrectable bad]
  · have some_cell : 0 < cells.length := List.length_pos_iff.mpr fun empty => by simp [empty] at reads
    rw [checkRecord_valid sound]
    dsimp only
    rw [allocationReads_of_entries some_cell head chained, reads, checkLinks_refused after passed bad]

theorem takeDescriptor_unanswered (i n k : Nat) {d : Descriptor} {q : Nat} {cause : FatalCause} {s : State}
    (accepts : s.accepts d) (state : (s.flow d.flow).state = .enabled)
    (cap : (s.flow d.flow).held + (d.length + 255) / 256 ≤ (s.flow d.flow).cap)
    (free : (d.length + 255) / 256 ≤ s.bm.freeCount) (records : s.bm.freeRecords.head? = some q)
    (error : meetsError s ((d.length + 255) / 256) q cause) :
    takeDescriptor i n k d s = sendReport (.fatal cause) s := by
  rw [takeDescriptor, invalidSubcode_none accepts]
  dsimp only
  rw [cellNeed_eq, requestAdmission_unanswered n d state cap free records error]

theorem retryHeld_unanswered (i n : Nat) {h : HeldCopy} {q : Nat} {cause : FatalCause} {s : State}
    (state : (s.flow h.descriptor.flow).state = .enabled)
    (cap : (s.flow h.descriptor.flow).held + h.need ≤ (s.flow h.descriptor.flow).cap) (free : h.need ≤ s.bm.freeCount)
    (records : s.bm.freeRecords.head? = some q) (error : meetsError s h.need q cause) :
    retryHeld i n h s = (sendReport (.fatal cause) s).onDfu fun b =>
      { b with held := b.held.map fun e => if e.ring = n then { e with stopped := true } else e } := by
  rw [retryHeld]
  rw [requestAdmission_unanswered n _ state cap free records error]

/-! ### Frames on a link -/

/-- A serializer that stops, its fields as they stood (R18). -/
theorem stopSerializer_some {l : Nat} {z : Serializer} {s : State} (busy : (s.link l).serializer = some z) :
    stopSerializer l s = s.setLink l { s.link l with serializer := some { z with stopped := true } } := by
  rw [stopSerializer, busy]
  rfl

section
variable {l : Nat} {z : Serializer} {s : State} (busy : (s.link l).serializer = some z)
include busy

theorem checkSending_refused (runs : z.stopped = false) (bad : tableGet eccUnlisted s.bm.frameEcc z.record = .uncorrectable) :
    checkSending l s = (false, (sendReport (.fatal .frameTableUncorrectable) s).setLink l { s.link l with
      serializer := some { z with stopped := true } }) := by
  rw [checkSending, busy]
  dsimp only
  rw [if_neg (by simp [runs]), checkRecord_uncorrectable bad]
  dsimp only
  rw [stopSerializer_some (s := sendReport _ s) busy]
  rfl

/-- A cell-sent report that meets an uncorrectable record is refused; the cell has been sent (R18). -/
theorem endCell_record (bad : tableGet eccUnlisted s.bm.frameEcc z.record = .uncorrectable) : endCell l z s =
    (sendReport (.fatal .frameTableUncorrectable)
      (s.send l (.cell (cellPayload s z.nextCell (cellLength (s.frame z.record) z.sent))))).setLink l { s.link l with
        serializer := some { z with stopped := true } } := by
  unfold endCell
  dsimp only
  rw [checkRecord_uncorrectable (by simpa using bad)]
  dsimp only
  rw [stopSerializer_some (z := z) (by simpa [sendReport] using busy)]
  rfl

/-- A cell-sent report whose link entry is uncorrectable is refused likewise (R18). -/
theorem endCell_entry (sound : tableGet eccUnlisted s.bm.frameEcc z.record = .valid) (more : z.sent + 1 ≠ z.cellCount)
    (bad : tableGet eccUnlisted s.bm.linkEcc z.nextCell = .uncorrectable) : endCell l z s =
    (sendReport (.fatal .linkTableUncorrectable)
      (s.send l (.cell (cellPayload s z.nextCell (cellLength (s.frame z.record) z.sent))))).setLink l { s.link l with
        serializer := some { z with stopped := true } } := by
  unfold endCell
  dsimp only
  rw [checkRecord_valid (by simpa using sound)]
  dsimp only
  rw [if_neg more, checkLink_uncorrectable (by simpa using bad)]
  dsimp only
  rw [stopSerializer_some (z := z) (by simpa [sendReport] using busy)]
  rfl

end

/-! ### A payload read whose cell's link entry is bad -/

/-- The bytes of a read up to the end of a cell whose link entry is uncorrectable (R14, R18; log entry 10). -/
theorem fillBytes_refused {r : Nat} {xs : List Byte} {f : FrameRecord} {s : State} (here : s.frame r = f)
    (bad : tableGet eccUnlisted s.bm.linkEcc f.fillCell = .uncorrectable) (inside : f.fillOffset < 256)
    (reaches : 256 ≤ f.fillOffset + xs.length) (more : 256 * (f.filled + 1) < f.length) (open_ : f.filled + 1 < f.cellCount) :
    ∃ t, fillBytes r xs s = (false, sendReport (.fatal .linkTableUncorrectable) t) ∧
      Written r (fun k => (f.fillCell, f.fillOffset + k)) (xs.take (256 - f.fillOffset)) s t ∧
      t.frame r = { f with filled := f.filled + 1, fillOffset := 0 } := by
  induction xs generalizing f s with
  | nil => simp at reaches; omega
  | cons x xs ih =>
    simp only [List.length_cons] at reaches
    rw [fillBytes, here, if_pos (Nat.lt_of_succ_lt open_)]
    by_cases within : f.fillOffset + 1 < 256
    · rw [fillByte_inside r x here within (by omega)]
      obtain ⟨t, leads, written, record⟩ := ih (f := { f with fillOffset := f.fillOffset + 1 })
        (s := (s.setCellByte f.fillCell f.fillOffset x).setFrame r { f with fillOffset := f.fillOffset + 1 }) (by simp)
        (by simpa using bad) within (by dsimp only; omega) more open_
      have piece : (x :: xs).take (256 - f.fillOffset) = x :: xs.take (256 - (f.fillOffset + 1)) := by
        rw [show 256 - f.fillOffset = 256 - (f.fillOffset + 1) + 1 by omega, List.take_succ_cons]
      rw [piece]
      refine ⟨t, leads, (Written.one r x s { f with fillOffset := f.fillOffset + 1 } inside).cons inside (fun k _ same => ?_) ?_,
        record⟩
      · have offset := congrArg Prod.snd same
        simp at offset
      · simpa only [Nat.add_assoc, Nat.add_comm 1, Nat.add_zero] using written
    · have full : f.fillOffset + 1 = 256 := by omega
      rw [fillByte_refused r x here full (Nat.ne_of_lt open_) bad]
      have piece : (x :: xs).take (256 - f.fillOffset) = [x] := by
        rw [show 256 - f.fillOffset = 1 by omega]
        rfl
      rw [piece]
      exact ⟨_, rfl, Written.one r x s _ inside, by simp [cellComplete]⟩

/-- Settles O44: the events in the order of the statement, each with the check that refuses it. -/
theorem uncorrectableEventsRefused : Obligations.UncorrectableEventsRefused := by
  unfold Obligations.UncorrectableEventsRefused
  intro s record entry report room bad stops running
  refine ⟨fun r ok before after listed first broken => ?_, fun i n k q x cause slot awaits active accepts => ?_,
    fun before after e h i q cause inside slot list first ready fresh held need => ?_,
    fun i n r j off gs e xs slot read awaits whole => ?_, fun l z busy runs => ?_,
    fun tag flow before after r arrives inside state queue passed broken => ?_,
    fun l before after r active idle queued order pass fresh broken =>
      consider_refused running active idle queued order pass fresh broken⟩
  · rw [exec_fetchEnd, strike_nil, fetchEndEvent, listed, takeFetchEnd_append first]
    refine (congrArg Outcome.next (if_pos running)).trans ?_
    rw [checkRecord_uncorrectable (s := s.onBm fun b => { b with fetchEnds := before ++ after }) broken]
    rfl
  · rintro need ⟨state, cap, free, records⟩ error
    rw [exec_descriptorReadReturn_running x running slot awaits, returnDescriptor_active i n k x (s := freeRead i s) active,
      takeDescriptor_unanswered (s := freeRead i s) i n k accepts state cap free records error]
    rfl
  · rintro ⟨state, cap, free, records⟩ error
    obtain ⟨m, idle⟩ := idleSlot_some inside slot
    rw [retry_retries running idle (retryClaim_first list first ready fresh) held,
      retryHeld_unanswered m e.ring state cap free records error]
    rfl
  · intro f
    refine ⟨fun broken => ?_, fun sound broken state low reaches more open_ => ?_⟩
    · have refused : presentBytes r xs (freeRead i s) =
          (false, sendReport (.fatal .frameTableUncorrectable) (freeRead i s)) := by
        rw [presentBytes, checkRecord_uncorrectable (s := freeRead i s) broken]
      rw [exec_payloadReadReturn_refused running slot read awaits whole refused]
      exact congrArg Outcome.next (if_neg fun both => Nat.lt_irrefl _ both.1)
    · obtain ⟨t, filled, written, record⟩ := fillBytes_refused (f := f) (s := freeRead i s) rfl broken low reaches more open_
      have refused : presentBytes r xs (freeRead i s) = (false, sendReport (.fatal .linkTableUncorrectable) t) := by
        rw [presentBytes_fills (s := freeRead i s) xs sound state, filled]
      have leads := exec_payloadReadReturn_refused running slot read awaits whole refused
      obtain ⟨a, b, c, stays⟩ := written.stays
      have len : (xs.take (256 - f.fillOffset)).length = 256 - f.fillOffset := by rw [List.length_take]; omega
      refine ⟨sendReport (.fatal .linkTableUncorrectable) t, fun k below => ?_, fun c o small apart => ?_, record,
        fun q other => written.records q other, by rw [stays]; rfl, by rw [stays]; exact (freeRead_read ..).trans (if_pos rfl),
        fun m other => by rw [stays]; exact (freeRead_read ..).trans (if_neg other), by rw [stays]; rfl, by rw [stays]; rfl,
        by rw [stays]; rfl, by rw [stays]; rfl, by rw [stays]; rfl, by rw [stays]; rfl, by rw [stays]; rfl, by rw [stays]; rfl,
        by rw [stays]; rfl, ?_⟩
      · have byte := written.bytes k (by omega)
        rw [List.getD_eq_getElem?_getD, List.getElem?_take_of_lt (by omega), ← List.getD_eq_getElem?_getD] at byte
        exact byte
      · exact written.others c o small fun k below same => apart ⟨same.1, by omega⟩
      · have here : (sendReport (.fatal .linkTableUncorrectable) t).frame r =
            { f with filled := f.filled + 1, fillOffset := 0 } := record
        have link (q : Nat) : (sendReport (.fatal .linkTableUncorrectable) t).link q = s.link q := by rw [stays]; rfl
        have flow (q : Nat) : (sendReport (.fatal .linkTableUncorrectable) t).flow q = s.flow q := by rw [stays]; rfl
        have clean (empty : s.bm.cellEcc = []) : (sendReport (.fatal .linkTableUncorrectable) t).bm.cellEcc = [] :=
          written.clean empty
        generalize sendReport (.fatal .linkTableUncorrectable) t = v at *
        have ofFlow : (v.frame r).flow = f.flow := by rw [here]
        have count : (v.frame r).filled = f.filled + 1 := by rw [here]
        have rises : f.filled < (v.frame r).filled := by rw [count]; exact Nat.lt_succ_self _
        refine ⟨fun behind => fill_unreported flow ofFlow leads (.inr behind), fun first filling =>
          fill_considered flow link ofFlow leads rises first rfl (by rw [here]; exact ne_of_eq_of_ne filling (by decide)),
          fun first sending z busy => ?_⟩
        have sent := fill_sent flow link ofFlow leads rises first rfl (by rw [here]; exact sending) busy
        rw [count] at sent
        obtain ⟨ignored, taken⟩ := sent
        exact ⟨ignored, fun named runs => (taken named runs).imp id fun starved starves empty => starved starves (clean empty)⟩
  · intro f n sent
    refine ⟨fun sends broken => ?_, fun sends sound more broken => ?_, fun broken =>
      ⟨fun starved timed => ?_, fun live => ?_⟩⟩
    · rw [cellSent_some busy, if_pos ⟨running, sends, runs⟩, endCell_record busy broken]
      rfl
    · rw [cellSent_some busy, if_pos ⟨running, sends, runs⟩, endCell_entry busy sound more broken]
      rfl
    · rw [underrunTimerExpiry_some busy, if_pos ⟨running, starved, timed, runs⟩, abortEvent,
        checkSending_refused busy runs broken]
      rfl
    · have refused (cause : LinkCause) : failLinkEvent l cause s = stops l z (report .frameTableUncorrectable s) := by
        rw [failLinkEvent, checkSending_refused busy runs broken]
        rfl
      refine ⟨by rw [exec_malformedMessage, protocolError_fails running live, refused], fun x => ?_⟩
      rw [exec_down, if_pos running]
      rcases live with active | draining
      · rw [active]
        exact congrArg Outcome.next (refused _)
      · rw [draining, downInDrain, checkSending_refused busy runs broken]
        rfl
  · have refused : flushFlow tag flow.toNat s.atDecision =
        adminComplete tag 0x13 .aborted 0 (report .frameTableUncorrectable s.atDecision) := by
      have checked := checkRecords_refused (s := s.atDecision) after passed broken
      have list : (s.atDecision.flow flow.toNat).queue = before ++ r :: after := queue
      rw [flushFlow, if_neg (Nat.not_lt.mpr inside), list, checked]
      have here : (s.atDecision.flow flow.toNat).state = (s.flow flow.toNat).state := rfl
      rcases state with state | state <;> (rw [here, state]; rfl)
    exact command_answered arrives (exec_flushFlow ..) refused

end Sys2Proof.Proofs.Refusals
